-- ==== Sys2Proof/Word.lean ====
section
/-! DEFINITION. Bytes and two-byte numbers, as the link frames of the K740 carry them (R201). -/

namespace Sys2Proof

/-- One byte of a link frame. -/
abbrev Byte := BitVec 8

/-- A two-byte quantity: the frame check (R201). -/
abbrev Word := BitVec 16

/-- A two-byte number, high byte first (R201). -/
def twoBytes (hi lo : Byte) : Nat := hi.toNat * 256 + lo.toNat

/-- The byte that carries a small number. -/
def byteOf (n : Nat) : Byte := BitVec.ofNat 8 n

/-- The two bytes of a number, high byte first (R201). -/
def bytesOf (n : Nat) : List Byte := [byteOf (n / 256), byteOf n]

/-- The byte that carries a flag: 0 clear, 1 set. -/
def flagByte (b : Bool) : Byte := if b then 1#8 else 0#8

end Sys2Proof
end

