-- ==== Sys2Proof/Config.lean ====
section
/-! DEFINITION. The fixed numbers of the K740 (00_scope.md, section 3) and of the model.
The manual leaves no value of the block open, so there is no free value here (INVENTORY.md). -/

namespace Sys2Proof.Config

/-- Places in a Pending Item Set (R46). -/
def setPlaces : Nat := 64

/-- Drive load limit: contexts in the drive load of one drive (R23 check 6e, R28). -/
def driveLoadLimit : Nat := 8

/-- Entries of the Suspect Track List (R167). -/
def suspectPlaces : Nat := 16

/-- Items of one MAP-READ or SUSPECT-READ answer (R149, R174). -/
def readItems : Nat := 8

/-- Bytes of a sector (00_scope.md, section 3). -/
def sectorBytes : Nat := 512

/-- Highest value of the 0 to 15 saturating counts: pass count (R90), miss count (R103), suspect count (R167). -/
def countMax : Nat := 15

/-- Highest value of the further-error count (R135). -/
def furtherMax : Nat := 255

/-- The unit number of the controller (00_scope.md, section 3). -/
def controllerUnit : Nat := 15

/-- How many pieces of internal work one command may do in one go (log 3). A model bound, not a limit of the
K740: what is left is kept in `State.work` and done before anything else. -/
def workBound : Nat := 4096

end Sys2Proof.Config
end

