-- ==== Sys2Proof/Syntax.lean ====
section
/-! DEFINITION. The commands of the K740: one constructor of `Instr` for each row of spec/opcode_table.json. -/

namespace Sys2Proof

/-- Channel links CL0 to CL3. -/
abbrev LinkNo := Fin 4

/-- Drives 0 to 7. -/
abbrev DriveNo := Fin 8

/-- Contexts 0 to 15 (R27). -/
abbrev CtxNo := Fin 16

/-- Track buffers 0 to 5 (R118). -/
abbrev BufNo := Fin 6

/-- Sectors 0 to 15 of a track. -/
abbrev SectorNo := Fin 16

/-- Spare indexes 0 to 39 (R143). -/
abbrev SpareNo := Fin 40

/-- The drive conditions of the string bus (R4). -/
inductive DriveCondition where
  | writeFault | offTrack | speedLow | powerCheck
  deriving DecidableEq, Repr

/-- What a SECTOR-RESULT reports (R4): for a read pass GOOD or CORRECTED with the sector's data, or
UNCORRECTABLE; for a write pass WRITTEN. -/
inductive PassResult where
  | good (data : List Byte)
  | corrected (data : List Byte)
  | uncorrectable
  | written
  deriving DecidableEq, Repr

/-- The event that ends a pass (R108): the result of its last sector, or the SECTOR or INDEX event that closes
that sector without one. -/
inductive PassCloser where
  | result (sector : SectorNo) (r : PassResult)
  | sectorEvent
  | indexEvent
  deriving DecidableEq, Repr

/-- Why a frame for unit 15 names no operation (R193 checks 1 and 2). -/
inductive ManageFault where
  | noSingleManage
  | unknownCode (code : Byte)
  deriving DecidableEq, Repr

/-- The commands. A management frame carries its link, its tag (which only Link Busy returns, R61) and the bytes
of its operand block (R203). -/
inductive Instr where
  -- Link frames (chapters 2 and 3).
  | commandFrame (cl : LinkNo) (unit : BitVec 4) (tag : Byte) (notify : Bool) (count : Byte) (body : List Byte)
  | dataFrame (cl : LinkNo) (tag sector : Byte) (data : List Byte)
  | accept (cl : LinkNo)
  | defer (cl : LinkNo)
  | resume (cl : LinkNo)
  | halt (cl : LinkNo) (tag : Byte)
  | linkReset (cl : LinkNo)
  | linkDown (cl : LinkNo)
  | linkUp (cl : LinkNo)
  | frameCheckFailure (cl : LinkNo) (frame : List Byte)
  -- Management frames (chapter 11).
  | manageInvalid (cl : LinkNo) (tag : Byte) (why : ManageFault)
  | attach (cl : LinkNo) (tag : Byte) (operand : List Byte) (turned : Option (Vector Byte 8))
  | statusRead (cl : LinkNo) (tag : Byte) (operand : List Byte)
  | mapRead (cl : LinkNo) (tag : Byte) (operand : List Byte)
  | suspectRead (cl : LinkNo) (tag : Byte) (operand : List Byte)
  | bufferRead (cl : LinkNo) (tag : Byte) (operand : List Byte)
  | captureRead (cl : LinkNo) (tag : Byte) (operand : List Byte)
  | priorityWrite (cl : LinkNo) (tag : Byte) (operand : List Byte)
  | pathWrite (cl : LinkNo) (tag : Byte) (operand : List Byte)
  | policyWrite (cl : LinkNo) (tag : Byte) (operand : List Byte)
  | mapBegin (cl : LinkNo) (tag : Byte) (operand : List Byte)
  | mapLoad (cl : LinkNo) (tag : Byte) (operand : List Byte)
  | mapCommit (cl : LinkNo) (tag : Byte) (operand : List Byte)
  | relocate (cl : LinkNo) (tag : Byte) (operand : List Byte)
  | suspectPlace (cl : LinkNo) (tag : Byte) (operand : List Byte)
  | suspectRemove (cl : LinkNo) (tag : Byte) (operand : List Byte)
  | fenceForce (cl : LinkNo) (tag : Byte) (operand : List Byte)
  | fenceClear (cl : LinkNo) (tag : Byte) (operand : List Byte)
  | fencePurge (cl : LinkNo) (tag : Byte) (operand : List Byte)
  | forceRelease (cl : LinkNo) (tag : Byte) (operand : List Byte)
  | bufferDiscard (cl : LinkNo) (tag : Byte) (operand : List Byte)
  | parityForce (cl : LinkNo) (tag : Byte) (operand : List Byte)
  | controllerReset (cl : LinkNo) (tag : Byte) (operand : List Byte)
  -- Expiry of the timeouts.
  | offerTimeout (cl : LinkNo)
  | dataTimeout (cl : LinkNo)
  | seekTimeout (d : DriveNo)
  | recalibrateTimeout (d : DriveNo)
  -- Drive events (R4).
  | ready (d : DriveNo)
  | notReady (d : DriveNo)
  | seekDone (d : DriveNo) (good : Bool)
  | recalDone (d : DriveNo) (good : Bool)
  | index (d : DriveNo)
  | sector (d : DriveNo)
  | sectorResult (d : DriveNo) (sec : SectorNo) (r : PassResult)
  | conditionRaised (d : DriveNo) (c : DriveCondition)
  | conditionCleared (d : DriveNo) (c : DriveCondition)
  -- The power-on clear line (R200), and events of the K740's own progress (log 8).
  | powerOnClear
  | settleEnd (d : DriveNo)
  | passEnd (d : DriveNo) (by_ : PassCloser)
  | deliveryFrame (cl : LinkNo)
  | powerOnClearAsserted
  deriving DecidableEq, Repr

end Sys2Proof
end

