-- ==== Sys2Proof/Machine/State.lean ====
section
/-! DEFINITION. Everything the K740 holds, as plain data, and its value right after power-on clear. -/

namespace Sys2Proof.Machine

/-- A home track: the address a host names (R1). -/
structure HomeTrack where
  cyl : Fin 600
  head : Fin 10
  deriving DecidableEq, Repr

/-- A physical track: the address the arm works on (R1). -/
structure PhysTrack where
  cyl : Fin 604
  head : Fin 10
  deriving DecidableEq, Repr

/-- Direction of a connection (R53). -/
inductive Direction where
  | toController | toHost
  deriving DecidableEq, Repr

/-- A chain entry (R21). A READ or WRITE names `count` sectors from `first`. -/
inductive Entry where
  | seek (home : HomeTrack)
  | read (first : SectorNo) (count : Nat)
  | write (first : SectorNo) (count : Nat)
  | reserve (wait : Bool)
  | release
  | sense
  | flush
  deriving DecidableEq, Repr

/-- The conditions with which a chain ends, in the order of their codes (R204). -/
inductive Condition where
  | complete | unitInvalid | formatError | tagInUse | noPath | notReady | mapAbsent
  | driveFenced | reservedElsewhere | queueFull | controllerBusy | dataCheck | lostSector | bufferCheck
  | writeCheck | seekCheck | driveDropped | halted | linkTimeout | reserveQueued | releaseNotHeld
  deriving DecidableEq, Repr

/-- The eight arm states, in the order of R6. -/
inductive ArmState where
  | notReady | recalibrating | idle | settling | seeking | orienting | transferring | fenced
  deriving DecidableEq, Repr

/-- Why the arm recalibrates (R6). -/
inductive RecalReason where
  | comingReady | seekCheck | release | positionLost
  deriving DecidableEq, Repr

/-- Sweep direction (R6). -/
inductive Sweep where
  | inward | outward
  deriving DecidableEq, Repr

/-- A set of drive conditions: causes present, or Fence Sources (R17, R177). -/
structure CauseSet where
  writeFault : Bool
  offTrack : Bool
  speedLow : Bool
  powerCheck : Bool
  deriving DecidableEq, Repr

/-- Safe states (R181). -/
inductive SafeState where
  | writeInhibit | retract | isolate
  deriving DecidableEq, Repr

/-- Write modes (R129). -/
inductive WriteMode where
  | through | deferred
  deriving DecidableEq, Repr

/-- The Drive Policy (R17). -/
structure Policy where
  reversalSettle : Nat
  passLimit : Nat
  missLimit : Nat
  retryLimit : Nat
  writeMode : WriteMode
  retain : Bool
  autoSpare : Bool
  spareThreshold : Nat
  spareLowMark : Nat
  fenceSources : CauseSet
  safeState : SafeState
  autoRelease : Bool
  deriving DecidableEq, Repr

/-- Track Map states (R142). -/
inductive MapState where
  | absent | loading | loaded
  deriving DecidableEq, Repr

/-- Spare states (R143). -/
inductive SpareState where
  | free | inUse | allocated | retired
  deriving DecidableEq, Repr

/-- Relocation phases (R153). COMMIT is entered and left within one event (R198). -/
inductive RelocPhase where
  | waitBuffer | readOld | writeNew | verify | commit
  deriving DecidableEq, Repr

/-- Outcome of a relocation (R165). -/
inductive RelocOutcome where
  | relocated | failed | abandoned
  deriving DecidableEq, Repr

/-- The sense record (R198). -/
structure SenseRecord where
  arm : ArmState
  cyl : Option (Fin 604)
  sweep : Sweep
  holder : Option LinkNo
  waitList : List LinkNo
  fence : Bool
  causes : CauseSet
  forced : Bool
  map : MapState
  free : Nat
  inUse : Nat
  retired : Nat
  phase : Option RelocPhase
  load : Nat
  deriving DecidableEq, Repr

/-- The thirteen kinds of item, in the order of R47. -/
inductive ItemKind where
  | ending | reconnect | reservationGranted | reservationLost | controllerFree | driveReady | driveFenced
  | fenceReleased | trackRelocated | spareAdvised | sparesLow | bufferDataLost | suspectListFull
  deriving DecidableEq, Repr

/-- What an item reports, with its unit and the content its kind carries (R46, R55): a kind that names no drive is a
controller kind. -/
inductive ItemBody where
  | ending (d : DriveNo) (c : CtxNo)
  | reconnect (d : DriveNo) (c : CtxNo) (dir : Direction) (count : Nat)
  | reservationGranted (d : DriveNo)
  | reservationLost (d : DriveNo)
  | controllerFree
  | driveReady (d : DriveNo)
  | driveFenced (d : DriveNo)
  | fenceReleased (d : DriveNo)
  | trackRelocated (d : DriveNo) (home : HomeTrack) (outcome : RelocOutcome)
  | spareAdvised (d : DriveNo) (home : HomeTrack)
  | sparesLow (d : DriveNo)
  | bufferDataLost (d : DriveNo) (home : HomeTrack) (sectors : List SectorNo)
  | suspectListFull
  deriving DecidableEq, Repr

/-- An item of a Pending Item Set (R46). `ended` marks an offered level item whose condition has ended (R50). -/
structure Item where
  age : Nat
  body : ItemBody
  ended : Bool
  deriving DecidableEq, Repr

/-- Presentation Control of one link: its Pending Item Set in age order, the next age, and its Notice Priority
Table in the kind order of R47 (R46, R52). -/
structure Present where
  items : List Item
  nextAge : Nat
  levels : Vector (Fin 16) 13
  deriving DecidableEq, Repr

/-- Link state (R53). OFFERING holds the age of the offered item, CONNECTED the context and the direction. -/
inductive LinkState where
  | down
  | idle
  | offering (age : Nat)
  | connected (c : CtxNo) (dir : Direction)
  deriving DecidableEq, Repr

/-- The last item a MAP cursor returned (R148). -/
inductive MapMark where
  | entry (home : HomeTrack)
  | retired (spare : SpareNo)
  deriving DecidableEq, Repr

/-- The management cursor (R148, R174). -/
inductive Cursor where
  | map (d : DriveNo) (last : Option MapMark) (stale : Bool)
  | suspect (last : Option (DriveNo × HomeTrack)) (stale : Bool)
  deriving DecidableEq, Repr

/-- The port record (R53). The Offer Timeout runs exactly in OFFERING, the Data Timeout exactly in CONNECTED to
controller (log 5). -/
structure Port where
  state : LinkState
  floor : Fin 16
  cursor : Option Cursor
  deriving DecidableEq, Repr

/-- Authority level and attach lock of a link (R194). -/
structure Authority where
  full : Bool
  locked : Bool
  deriving DecidableEq, Repr

/-- What a context in WAIT_STORE waits for (R28): its place on the Buffer Wait List; its buffer leaving DESTAGING
and the relocation pin; the flush wait; or nothing, the command in hand carrying it on (`goingOn`) or to its end
(`leaving`, R37 and R42) (log 3). -/
inductive StoreWait where
  | bufferList | bufferFree | flush | goingOn | leaving
  deriving DecidableEq, Repr

/-- Context states other than FREE (R28). -/
inductive CtxState where
  | staging
  | queued
  | active
  | waitStore (w : StoreWait)
  | waitLink
  | connected
  | ending
  deriving DecidableEq, Repr

/-- Stop requests (R27). -/
inductive StopRequest where
  | none | halt | discard
  deriving DecidableEq, Repr

/-- An ending condition with its failing entry index and sector list (R37). -/
structure Ending where
  cond : Condition
  entry : Option Nat
  sectors : List SectorNo
  deriving DecidableEq, Repr

/-- A context that is not FREE (R27). `expected` are the staging sectors not yet stored (R30), `deliver` the sectors
set out and not yet sent with their fill marks, `deliverCond` the condition that READ ends with (R34, R150). -/
structure Context where
  state : CtxState
  link : Option LinkNo
  tag : Byte
  drive : DriveNo
  order : Nat
  entries : List Entry
  cur : Nat
  home : Option HomeTrack
  buffer : Option BufNo
  failing : List SectorNo
  sense : Option SenseRecord
  stop : StopRequest
  ending : Option Ending
  expected : List SectorNo
  deliver : List (SectorNo × Bool)
  deliverCond : Option Condition
  deriving DecidableEq, Repr

/-- Reservation Record (R69). -/
structure Reservation where
  holder : Option LinkNo
  waitList : List LinkNo
  deriving DecidableEq, Repr

/-- Drive Record (R6). The Seek Timeout runs exactly while a seek target is present, the Recalibrate Timeout exactly
while RECALIBRATING with the cylinder UNKNOWN (log 5). -/
structure Drive where
  ready : Bool
  arm : ArmState
  cyl : Option (Fin 604)
  seekTarget : Option (Fin 604)
  recalReason : Option RecalReason
  lateAnswer : Bool
  sweep : Sweep
  indexSeen : Bool
  position : Option SectorNo
  policy : Policy
  pending : Option Policy
  deriving DecidableEq, Repr

/-- Work for an arm (R82, R86, R102). -/
inductive Work where
  | step (c : CtxNo)
  | destage (b : BufNo)
  | relocation (phase : RelocPhase)
  deriving DecidableEq, Repr

/-- Request Queue item (R82). -/
structure QueueItem where
  work : Work
  home : HomeTrack
  rank : Nat
  passes : Nat
  deriving DecidableEq, Repr

/-- Selection record (R86), with the rank and pass count of a selected queue item (R96). -/
structure Selection where
  work : Work
  phys : PhysTrack
  reversal : Bool
  settle : Nat
  detached : Bool
  home : HomeTrack
  rank : Nat
  passes : Nat
  deriving DecidableEq, Repr

/-- Arm Scheduler of one drive (R82, R86): the Request Queue in rank order. -/
structure Scheduler where
  queue : List QueueItem
  nextRank : Nat
  selection : Option Selection
  deriving DecidableEq, Repr

/-- Direction of a transfer (R102). -/
inductive Transfer where
  | read | write
  deriving DecidableEq, Repr

/-- Orientation record (R102). The needed set is empty for WRITE. The buffer and home track are those of the
request. -/
structure Orient where
  work : Work
  dir : Transfer
  buffer : BufNo
  home : HomeTrack
  first : SectorNo
  last : SectorNo
  needed : List SectorNo
  retry : Nat
  miss : Nat
  deriving DecidableEq, Repr

/-- A pass under a grant (R101, R108). `begun`, `taken` and `closed` count sectors of the run whose data is due or
has gone, whose result has been taken, and which a closing event has closed. `withheld` are sectors of a write pass
kept from the drive, `stored` sectors into which a Data Frame was stored since their data left (R113), `noted`
sectors noted by VERIFY (R159). `dropped` marks a pass that a Controller Reset ends at its sector (R116). -/
structure Pass where
  drive : DriveNo
  work : Work
  dir : Transfer
  buffer : BufNo
  home : HomeTrack
  first : SectorNo
  last : SectorNo
  begun : Nat
  taken : Nat
  closed : Nat
  withheld : List SectorNo
  stored : List SectorNo
  noted : List SectorNo
  dropped : Bool
  deriving DecidableEq, Repr

/-- A booking (R101). -/
structure Booking where
  drive : DriveNo
  work : Work
  deriving DecidableEq, Repr

/-- The path record (R101). -/
structure Path where
  grant : Option Pass
  booking : Option Booking
  deriving DecidableEq, Repr

/-- A valid sector of a buffer (R118). -/
structure Cell where
  data : List Byte
  dirty : Bool
  bad : Bool
  deriving DecidableEq, Repr

/-- Destage of a buffer (R118). -/
inductive Destage where
  | none | queued | running
  deriving DecidableEq, Repr

/-- Buffer Record (R118). `cells` lists the valid sectors, sector numbers strictly rising; a sector it does not list
is not valid and holds nothing (log 31). `runs` is empty unless the destage is RUNNING. -/
structure Buffer where
  assigned : Option (DriveNo × HomeTrack)
  cells : List (SectorNo × Cell)
  relocPin : Bool
  destage : Destage
  runs : List (SectorNo × SectorNo)
  lastWriter : Option LinkNo
  parityForce : Bool
  deriving DecidableEq, Repr

/-- Who asks for a buffer (R122). -/
inductive Requester where
  | context (c : CtxNo)
  | relocation
  deriving DecidableEq, Repr

/-- Entry of the Buffer Wait List (R123). -/
structure Waiter where
  who : Requester
  drive : DriveNo
  home : HomeTrack
  deriving DecidableEq, Repr

/-- Requester named by the Error Capture Record (R135). -/
inductive CaptureBy where
  | read (link : Option LinkNo) (tag : Byte)
  | write (link : Option LinkNo) (tag : Byte)
  | destage
  | relocation
  deriving DecidableEq, Repr

/-- Error Capture Record (R135). -/
structure Capture where
  buffer : BufNo
  drive : DriveNo
  home : HomeTrack
  sector : SectorNo
  toDrive : Bool
  by_ : CaptureBy
  dirty : Bool
  deriving DecidableEq, Repr

/-- Track Map entry (R142). -/
structure MapEntry where
  home : HomeTrack
  spare : SpareNo
  lost : List SectorNo
  deriving DecidableEq, Repr

/-- Relocation Record (R153). `afresh` is the model's own mark: a seek check has left READ_OLD to be carried out from
its beginning (R164; log 43). -/
structure Relocation where
  home : HomeTrack
  old : PhysTrack
  newSpare : Option SpareNo
  phase : RelocPhase
  buffer : Option BufNo
  pending : List SectorNo
  afresh : Bool
  deriving DecidableEq, Repr

/-- Track Map, Spare Pool, Relocation Record and spares-low flag of one drive (R142, R143, R152, R153). -/
structure Tracks where
  map : MapState
  entries : List MapEntry
  retired : List SpareNo
  pool : Vector SpareState 40
  reloc : Option Relocation
  sparesLow : Bool
  deriving DecidableEq, Repr

/-- Origin of a suspect entry (R167). -/
inductive Origin where
  | detected | placed
  deriving DecidableEq, Repr

/-- Suspect entry (R167). -/
structure Suspect where
  drive : DriveNo
  home : HomeTrack
  count : Nat
  origin : Origin
  spareDue : Bool
  blocked : Bool
  deriving DecidableEq, Repr

/-- Fence Record (R177). `safeSent`: SAFE-STATE was sent during this fence (R189). -/
structure Fence where
  flag : Bool
  causes : CauseSet
  forced : Bool
  releasePending : Bool
  commanded : Option SafeState
  safeSent : Bool
  deriving DecidableEq, Repr

/-- Detail of a Status Frame (R204). -/
inductive Detail where
  | none
  | home (h : HomeTrack)
  | homeOutcome (h : HomeTrack) (o : RelocOutcome)
  | sense (r : SenseRecord)
  deriving DecidableEq, Repr

/-- Status Frame (R24, R37, R55, R204). -/
structure StatusFrame where
  unit : BitVec 4
  tag : Option Byte
  kind : ItemKind
  cond : Option Condition
  entry : Option Nat
  sectors : Option (List SectorNo)
  detail : Detail
  deriving DecidableEq, Repr

/-- Reasons of refusal, in the order of their codes (R204). -/
inductive Reason where
  | authority | range | state | mapBusy | relocateBusy | loadError | cursorStale | fenceCausePresent | attachLocked
  deriving DecidableEq, Repr

/-- Result of a management operation (R204). A refusal for LOAD-ERROR names the item. -/
inductive Answer where
  | accepted (data : List Byte)
  | refused (reason : Reason) (item : Option Nat)
  deriving DecidableEq, Repr

/-- Frames to the host (R202). -/
inductive HostFrame where
  | taken (tag : Byte)
  | linkBusy (unit : BitVec 4) (tag : Byte)
  | status (f : StatusFrame)
  | reconnect (tag : Byte) (dir : Direction) (count : Nat)
  | haltAnswer (tag : Byte) (tooLate : Bool)
  | data (tag : Byte) (sector : SectorNo) (bytes : List Byte)
  | response (code : Byte) (answer : Answer)
  deriving DecidableEq, Repr

/-- Orders on the string bus (R3). A WRITE PASS order's sector data follows it, sector by sector, as `writeData`. -/
inductive Order where
  | seek (cyl : Fin 604)
  | recalibrate
  | readPass (head : Fin 10) (first last : SectorNo)
  | writePass (head : Fin 10) (first last : SectorNo)
  | writeData (sector : SectorNo) (bytes : List Byte)
  | safeState (safe : SafeState)
  | safeStateEnd
  deriving DecidableEq, Repr

/-- What the K740 sends (log 4). -/
inductive Output where
  | frame (cl : LinkNo) (f : HostFrame)
  | order (d : DriveNo) (o : Order)
  deriving DecidableEq, Repr

/-- Work that one block hands to another inside a command (log 3). Each piece checks for itself that it still has
something to do. -/
inductive Task where
  | startStep (c : CtxNo)
  | assigned (c : CtxNo)
  | walk (c : CtxNo)
  | readDone (c : CtxNo)
  | deliver (c : CtxNo)
  | flushWait (c : CtxNo)
  | endStep (c : CtxNo)
  | nextStep (c : CtxNo)
  | endChain (c : CtxNo) (cond : Condition) (sectors : List SectorNo)
  | unpin (c : CtxNo)
  | raiseEnding (c : CtxNo)
  | freeContext (c : CtxNo)
  | giveItem (b : BufNo)
  | select (d : DriveNo)
  | armIdle (d : DriveNo)
  | destageEnded (d : DriveNo) (b : BufNo)
  | destageStopped (b : BufNo)
  | holdBuffer (d : DriveNo)
  | relocOutcome (d : DriveNo) (home : HomeTrack) (o : RelocOutcome)
  | recordFree (d : DriveNo)
  | createRelocation (d : DriveNo) (home : HomeTrack)
  | abandon (d : DriveNo)
  | report (d : DriveNo) (home : HomeTrack)
  | threshold (d : DriveNo) (home : HomeTrack)
  | fenceTest (d : DriveNo)
  | purge (d : DriveNo)
  | loseReservations (cl : LinkNo)
  | losePack (d : DriveNo) (wasFenced : Bool)
  | choose (cl : LinkNo)
  deriving DecidableEq, Repr

/-- The state of the K740. -/
structure State where
  /-- Channel Link Ports (R53). -/
  ports : Vector Port 4
  /-- Authority levels and attach locks (R194). -/
  auth : Vector Authority 4
  /-- Pins: the line of each link is up (R53, R200; log 6). -/
  lineUp : Vector Bool 4
  /-- Presentation Control of each link (R46, R52). -/
  present : Vector Present 4
  /-- Context Table; an absent context is FREE (R27). -/
  contexts : Vector (Option Context) 16
  /-- Chains accepted so far: the next acceptance order (R27; log 38). -/
  acceptCount : Nat
  /-- Context Wait List (R26). -/
  ctxWait : List LinkNo
  /-- Path Table: true is ALLOWED (R65). -/
  paths : Vector (Vector Bool 8) 4
  /-- Reservation Records (R69). -/
  resv : Vector Reservation 8
  /-- Drive Records (R6). -/
  drives : Vector Drive 8
  /-- Arm Schedulers (R82). -/
  scheds : Vector Scheduler 8
  /-- Path record of the String Data Path (R101). -/
  path : Path
  /-- Orientation records (R102). -/
  orients : Vector (Option Orient) 8
  /-- Buffer Records (R118). -/
  buffers : Vector Buffer 6
  /-- LRU order, least recently used first (R120). -/
  lru : List BufNo
  /-- Buffer Wait List (R123). -/
  bufWait : List Waiter
  /-- Error Capture Record (R135). -/
  capture : Option Capture
  /-- Further-error count (R135). -/
  further : Nat
  /-- Alternate Track Unit, per drive (R142, R143, R152, R153). -/
  tracks : Vector Tracks 8
  /-- Suspect Track List (R167). -/
  suspects : List Suspect
  /-- Fence Records (R177). -/
  fences : Vector Fence 8
  /-- Attach Memory (R195). -/
  attachMemory : Bool
  /-- Pins: the identity switches (R195; log 7). -/
  switches : Vector Byte 8
  /-- Pin: the power-on clear line is asserted (R200). -/
  clearLine : Bool
  /-- MODEL: everything sent, oldest first (log 4). -/
  sent : List Output
  /-- MODEL: internal work of the command in hand (log 3). -/
  work : List Task
  /-- MODEL: commands waiting, first in first out (log 2). -/
  pending : List Instr
  deriving DecidableEq, Repr

/-- Faults. The K740 has none: no command stops it (safe). -/
inductive Fault where
  deriving DecidableEq, Repr

/-- Refusals. -/
inductive Refusal where
  /-- Raised by an arm of `exec` that has no meaning yet; no arm raises it (safe). -/
  | notModelled (mnemonic : String)
  deriving DecidableEq, Repr

/-- The power-on Drive Policy (R17). -/
def Policy.powerOn : Policy where
  reversalSettle := 2
  passLimit := 8
  missLimit := 3
  retryLimit := 3
  writeMode := .through
  retain := false
  autoSpare := false
  spareThreshold := 3
  spareLowMark := 4
  fenceSources := ⟨true, false, false, true⟩
  safeState := .writeInhibit
  autoRelease := false

/-- Power-on Drive Record (R6). -/
def Drive.powerOn : Drive where
  ready := false
  arm := .notReady
  cyl := none
  seekTarget := none
  recalReason := none
  lateAnswer := false
  sweep := .inward
  indexSeen := false
  position := none
  policy := Policy.powerOn
  pending := none

/-- Power-on Notice Priority Table (R47). -/
def Present.powerOnLevels : Vector (Fin 16) 13 := #v[8, 12, 6, 6, 4, 3, 10, 5, 2, 2, 2, 9, 1]

/-- Power-on Presentation Control (R64). -/
def Present.powerOn : Present := ⟨[], 0, Present.powerOnLevels⟩

/-- An EMPTY buffer at power-on (R118). -/
def Buffer.powerOn : Buffer := ⟨none, [], false, .none, [], none, false⟩

/-- Power-on Alternate Track Unit of a drive (R166). -/
def Tracks.powerOn : Tracks := ⟨.absent, [], [], Vector.replicate 40 .free, none, false⟩

/-- Power-on Fence Record (R177). -/
def Fence.powerOn : Fence := ⟨false, ⟨false, false, false, false⟩, false, false, none, false⟩

/-- The machine when the power-on clear line has been released (R200), every link's line up and the switches at zero
(log 6, log 7). -/
def State.reset : State where
  ports := Vector.replicate 4 ⟨.idle, 0, none⟩
  auth := Vector.replicate 4 ⟨false, false⟩
  lineUp := Vector.replicate 4 true
  present := Vector.replicate 4 Present.powerOn
  contexts := Vector.replicate 16 none
  acceptCount := 0
  ctxWait := []
  paths := Vector.replicate 4 (Vector.replicate 8 true)
  resv := Vector.replicate 8 ⟨none, []⟩
  drives := Vector.replicate 8 Drive.powerOn
  scheds := Vector.replicate 8 ⟨[], 0, none⟩
  path := ⟨none, none⟩
  orients := Vector.replicate 8 none
  buffers := Vector.replicate 6 Buffer.powerOn
  lru := [0, 1, 2, 3, 4, 5]
  bufWait := []
  capture := none
  further := 0
  tracks := Vector.replicate 8 Tracks.powerOn
  suspects := []
  fences := Vector.replicate 8 Fence.powerOn
  attachMemory := false
  switches := Vector.replicate 8 0#8
  clearLine := false
  sent := []
  work := []
  pending := []

end Sys2Proof.Machine
end

