-- ==== Sys2Proof/Machine/Ops.lean ====
section
/-! DEFINITION. Named operations over the state: one place of a table changed, one output sent, one piece of internal
work put off, and the orders in which sectors, contexts and buffers are taken. -/

namespace Sys2Proof.Machine

/-- The links in rising order. -/
def allLinks : List LinkNo := [0, 1, 2, 3]

/-- The drives in rising order. -/
def allDrives : List DriveNo := [0, 1, 2, 3, 4, 5, 6, 7]

/-- The buffers in rising order. -/
def allBufs : List BufNo := [0, 1, 2, 3, 4, 5]

/-- The sectors of a track in rising order. -/
def allSectors : List SectorNo := [0, 1, 2, 3, 4, 5, 6, 7, 8, 9, 10, 11, 12, 13, 14, 15]

/-- The contexts in rising order. -/
def allCtxs : List CtxNo := [0, 1, 2, 3, 4, 5, 6, 7, 8, 9, 10, 11, 12, 13, 14, 15]

/-- The spares in rising order. -/
def allSpares : List SpareNo :=
  [0, 1, 2, 3, 4, 5, 6, 7, 8, 9, 10, 11, 12, 13, 14, 15, 16, 17, 18, 19,
   20, 21, 22, 23, 24, 25, 26, 27, 28, 29, 30, 31, 32, 33, 34, 35, 36, 37, 38, 39]

/-- One place of a table replaced. -/
def put {α : Type} {n : Nat} (v : Vector α n) (i : Fin n) (x : α) : Vector α n := v.set i.val x i.isLt

/-- One place of a table changed. -/
def change {α : Type} {n : Nat} (v : Vector α n) (i : Fin n) (f : α → α) : Vector α n := put v i (f (v.get i))

namespace State

def modPort (l : LinkNo) (f : Port → Port) (s : State) : State := { s with ports := change s.ports l f }
def modAuth (l : LinkNo) (f : Authority → Authority) (s : State) : State := { s with auth := change s.auth l f }
def modPresent (l : LinkNo) (f : Present → Present) (s : State) : State := { s with present := change s.present l f }
def setCtx (c : CtxNo) (x : Option Context) (s : State) : State := { s with contexts := put s.contexts c x }
def modCtx (c : CtxNo) (f : Context → Context) (s : State) : State :=
  { s with contexts := change s.contexts c (Option.map f) }
def modResv (d : DriveNo) (f : Reservation → Reservation) (s : State) : State := { s with resv := change s.resv d f }
def modDrive (d : DriveNo) (f : Drive → Drive) (s : State) : State := { s with drives := change s.drives d f }
def modSched (d : DriveNo) (f : Scheduler → Scheduler) (s : State) : State := { s with scheds := change s.scheds d f }
def setOrient (d : DriveNo) (o : Option Orient) (s : State) : State := { s with orients := put s.orients d o }
def modBuffer (b : BufNo) (f : Buffer → Buffer) (s : State) : State := { s with buffers := change s.buffers b f }
def modTracks (d : DriveNo) (f : Tracks → Tracks) (s : State) : State := { s with tracks := change s.tracks d f }
def modFence (d : DriveNo) (f : Fence → Fence) (s : State) : State := { s with fences := change s.fences d f }

/-- What goes out (log 4). -/
def send (o : Output) (s : State) : State := { s with sent := s.sent ++ [o] }

/-- A frame sent on a link. -/
def frame (l : LinkNo) (f : HostFrame) (s : State) : State := s.send (.frame l f)

/-- An order issued on the string bus (R3). -/
def order (d : DriveNo) (o : Order) (s : State) : State := s.send (.order d o)

/-- Internal work put off until the present piece of work is done (log 3). -/
def later (ts : List Task) (s : State) : State := { s with work := s.work ++ ts }

/-- An operation of which all that it puts off is done after the given pieces of work (log 3, log 14). -/
def ahead (ts : List Task) (f : State → State) (s : State) : State :=
  let t := f { s with work := [] }
  { t with work := s.work ++ ts ++ t.work }

def port (s : State) (l : LinkNo) : Port := s.ports.get l
def ctx (s : State) (c : CtxNo) : Option Context := s.contexts.get c
def drive (s : State) (d : DriveNo) : Drive := s.drives.get d
def sched (s : State) (d : DriveNo) : Scheduler := s.scheds.get d
def buffer (s : State) (b : BufNo) : Buffer := s.buffers.get b
def track (s : State) (d : DriveNo) : Tracks := s.tracks.get d
def fence (s : State) (d : DriveNo) : Fence := s.fences.get d

/-- The policy in force on a drive (R17). -/
def policy (s : State) (d : DriveNo) : Policy := (s.drive d).policy

/-- The link's cell for the drive holds ALLOWED (R65). -/
def allowed (s : State) (l : LinkNo) (d : DriveNo) : Bool := (s.paths.get l).get d

/-- Replaces the arm state (R6). -/
def setArm (d : DriveNo) (a : ArmState) (s : State) : State := s.modDrive d fun r => { r with arm := a }

end State

/-- Applies an operation for each element in turn. -/
def each {α : Type} (xs : List α) (f : α → State → State) (s : State) : State := xs.foldl (fun t x => f x t) s

/-- Puts an element in its place in a list that rises by `key`, after its equals. -/
def insertBy {α : Type} (key : α → Nat) (x : α) : List α → List α
  | [] => [x]
  | y :: ys => if key x < key y then x :: y :: ys else y :: insertBy key x ys

/-- A list sorted by rising `key`. -/
def sortBy {α : Type} (key : α → Nat) (xs : List α) : List α := xs.foldl (fun acc x => insertBy key x acc) []

/-- The contexts that meet a test, in order of acceptance (R27). -/
def ctxsWhere (s : State) (p : Context → Bool) : List CtxNo :=
  sortBy (fun c => match s.ctx c with | some x => x.order | none => 0)
    (allCtxs.filter fun c => match s.ctx c with | some x => p x | none => false)

/-- The sectors from `first` to `last` in rising order. -/
def span (first last : SectorNo) : List SectorNo := allSectors.filter fun x => first ≤ x && x ≤ last

/-- `count` sectors from `first` in rising order (R21). -/
def sectorsFrom (first : SectorNo) (count : Nat) : List SectorNo :=
  allSectors.filter fun x => decide (first.val ≤ x.val) && decide (x.val < first.val + count)

/-- A set of sectors in rising order without duplicates (R142). -/
def rising (xs : List SectorNo) : List SectorNo := allSectors.filter fun x => xs.contains x

/-- First and last sector of a set, or sector 0 alone of an empty one. -/
def firstLast (xs : List SectorNo) : SectorNo × SectorNo :=
  match rising xs with
  | [] => (0, 0)
  | x :: r => (x, (x :: r).getLast (by simp))

/-- One more, up to the highest value of a count that saturates. -/
def upTo (top n : Nat) : Nat := if n < top then n + 1 else n

end Sys2Proof.Machine
end

