-- ==== Sys2Proof/Machine/Flags.lean ====
section
/-! DEFINITION. What follows from the state at every moment: the state and pins of a buffer, the drive load, the sense
record, selected causes, and where a home track lives. -/

namespace Sys2Proof.Machine

/-- Buffer states (R119). -/
inductive BufState where
  | empty | clean | dirty | destaging
  deriving DecidableEq, Repr

namespace Buffer

/-- The cell of a valid sector (R118). -/
def cell (b : Buffer) (x : SectorNo) : Option Cell := (b.cells.find? fun p => p.1 == x).map (·.2)

/-- Valid sectors, rising (R118). -/
def valid (b : Buffer) : List SectorNo := b.cells.map (·.1)

/-- Dirty sectors, rising (R118). -/
def dirty (b : Buffer) : List SectorNo := (b.cells.filter fun p => p.2.dirty).map (·.1)

/-- The sector is valid and dirty (R110, R150). -/
def holdsDirty (b : Buffer) (x : SectorNo) : Bool := b.dirty.contains x

/-- The buffer state as it follows from the other fields (R119). -/
def state (b : Buffer) : BufState :=
  match b.assigned with
  | none => .empty
  | some _ => if b.destage = .running then .destaging else if b.dirty.isEmpty then .clean else .dirty

/-- The buffer is assigned to this drive. -/
def ofDrive (b : Buffer) (d : DriveNo) : Bool :=
  match b.assigned with
  | some (e, _) => e == d
  | none => false

end Buffer

/-- Puts a sector into a store that lists its sectors in rising order (R126). -/
def putCell (x : SectorNo) (c : Cell) : List (SectorNo × Cell) → List (SectorNo × Cell)
  | [] => [(x, c)]
  | (y, d) :: r => if x < y then (x, c) :: (y, d) :: r else if x = y then (x, c) :: r else (y, d) :: putCell x c r

/-- Invalidates a sector (R134). -/
def dropCell (x : SectorNo) (cs : List (SectorNo × Cell)) : List (SectorNo × Cell) := cs.filter fun p => p.1 != x

/-- Makes a sector clean (R113). -/
def cleanCell (x : SectorNo) (cs : List (SectorNo × Cell)) : List (SectorNo × Cell) :=
  cs.map fun p => if p.1 = x then (p.1, { p.2 with dirty := false }) else p

/-- Makes every sector clean (R161). -/
def cleanCells (cs : List (SectorNo × Cell)) : List (SectorNo × Cell) :=
  cs.map fun p => (p.1, { p.2 with dirty := false })

/-- Canonical form of a store: sector numbers strictly rising (log 31). -/
def cellsWf (cs : List (SectorNo × Cell)) : Bool := decide ((cs.map (·.1)).Pairwise (· < ·))

/-- Maximal runs of consecutive sectors of a rising list (R131). -/
def runsOf (xs : List SectorNo) : List (SectorNo × SectorNo) :=
  (allSectors.filter fun x => xs.contains x && !(xs.any fun y => y.val + 1 == x.val)).map fun a =>
    (a, ((allSectors.filter fun z => a ≤ z && (span a z).all xs.contains).getLast?).getD a)

/-- Context pins of a buffer: the contexts whose buffer field names it (R118). -/
def pins (s : State) (b : BufNo) : Nat :=
  (allCtxs.filter fun c => match s.ctx c with | some x => x.buffer == some b | none => false).length

/-- A buffer is pinned (R118). -/
def pinned (s : State) (b : BufNo) : Bool := decide (0 < pins s b) || (s.buffer b).relocPin

/-- Drive load: the drive's contexts in any state but FREE and ENDING (R28). -/
def driveLoad (s : State) (d : DriveNo) : Nat :=
  (allCtxs.filter fun c => match s.ctx c with | some x => x.drive == d && x.state != .ending | none => false).length

/-- Spares of a pool in one state (R143). -/
def spareCount (t : Tracks) (k : SpareState) : Nat := (allSpares.filter fun i => t.pool.get i == k).length

/-- The lowest-numbered FREE spare (R158). -/
def freeSpare (t : Tracks) : Option SpareNo := allSpares.find? fun i => t.pool.get i == .free

/-- The sense record of a drive, as it stands (R198). -/
def senseOf (s : State) (d : DriveNo) : SenseRecord where
  arm := (s.drive d).arm
  cyl := (s.drive d).cyl
  sweep := (s.drive d).sweep
  holder := (s.resv.get d).holder
  waitList := (s.resv.get d).waitList
  fence := (s.fence d).flag
  causes := (s.fence d).causes
  forced := (s.fence d).forced
  map := (s.track d).map
  free := spareCount (s.track d) .free
  inUse := spareCount (s.track d) .inUse
  retired := spareCount (s.track d) .retired
  phase := (s.track d).reloc.map (·.phase)
  load := driveLoad s d

/-- The place of one condition in a cause set. -/
def CauseSet.has (k : CauseSet) : DriveCondition → Bool
  | .writeFault => k.writeFault
  | .offTrack => k.offTrack
  | .speedLow => k.speedLow
  | .powerCheck => k.powerCheck

/-- A cause set with one condition joined or removed (R178). -/
def CauseSet.with (k : CauseSet) (c : DriveCondition) (v : Bool) : CauseSet :=
  match c with
  | .writeFault => { k with writeFault := v }
  | .offTrack => { k with offTrack := v }
  | .speedLow => { k with speedLow := v }
  | .powerCheck => { k with powerCheck := v }

/-- Some cause is present that is among the sources (R177). -/
def CauseSet.meets (k src : CauseSet) : Bool :=
  (k.writeFault && src.writeFault) || (k.offTrack && src.offTrack) || (k.speedLow && src.speedLow) ||
    (k.powerCheck && src.powerCheck)

/-- A selected cause is present on the drive (R177). -/
def selectedCause (s : State) (d : DriveNo) : Bool := (s.fence d).causes.meets (s.policy d).fenceSources

/-- The physical track of a spare (R2). -/
def sparePhys (i : SpareNo) : PhysTrack :=
  ⟨⟨600 + i.val / 10, by omega⟩, ⟨i.val % 10, by omega⟩⟩

/-- A home track as a physical track (R2). -/
def HomeTrack.phys (h : HomeTrack) : PhysTrack := ⟨⟨h.cyl.val, by omega⟩, h.head⟩

/-- The spare that a physical track is, if it is one (R161). -/
def PhysTrack.spare (p : PhysTrack) : Option SpareNo :=
  if h : 600 ≤ p.cyl.val then some ⟨(p.cyl.val - 600) * 10 + p.head.val, by omega⟩ else none

/-- The map entry of a home track (R2). -/
def Tracks.entry (t : Tracks) (h : HomeTrack) : Option MapEntry := t.entries.find? fun e => e.home == h

/-- Translation of a home track (R2). -/
def translate (t : Tracks) (h : HomeTrack) : PhysTrack :=
  match t.entry h with
  | some e => sparePhys e.spare
  | none => h.phys

/-- Sectors of a home track listed lost (R150). -/
def lostOf (t : Tracks) (h : HomeTrack) : List SectorNo :=
  match t.entry h with
  | some e => e.lost
  | none => []

/-- Home-track order: lower cylinder first, then lower head (R142). -/
def HomeTrack.key (h : HomeTrack) : Nat := h.cyl.val * 10 + h.head.val

/-- Where the READ of a sector comes from (R125, R150). -/
inductive Supply where
  | buffer | fill | drive
  deriving DecidableEq, Repr

/-- The supply of one sector of a step's home track from its buffer (R125, R150): a lost sector is fill unless the
buffer holds it valid and dirty. -/
def supply (s : State) (d : DriveNo) (home : HomeTrack) (b : BufNo) (x : SectorNo) : Supply :=
  let buf := s.buffer b
  if (lostOf (s.track d) home).contains x then
    if buf.holdsDirty x then .buffer else .fill
  else if buf.valid.contains x && (buf.state != .clean || (s.policy d).retain) then .buffer
  else .drive

end Sys2Proof.Machine
end

