-- ==== Sys2Proof/Machine/Presentation.lean ====
section
/-! DEFINITION. Presentation of endings and notices (chapter 3): raising, withdrawing and offering items, and what an
answer to an offer does to the port and the set. -/

namespace Sys2Proof.Machine

/-- The kind of an item (R47). -/
def ItemBody.kind : ItemBody → ItemKind
  | .ending .. => .ending
  | .reconnect .. => .reconnect
  | .reservationGranted _ => .reservationGranted
  | .reservationLost _ => .reservationLost
  | .controllerFree => .controllerFree
  | .driveReady _ => .driveReady
  | .driveFenced _ => .driveFenced
  | .fenceReleased _ => .fenceReleased
  | .trackRelocated .. => .trackRelocated
  | .spareAdvised .. => .spareAdvised
  | .sparesLow _ => .sparesLow
  | .bufferDataLost .. => .bufferDataLost
  | .suspectListFull => .suspectListFull

/-- The place of a kind in the order of R47. -/
def ItemKind.place : ItemKind → Fin 13
  | .ending => 0 | .reconnect => 1 | .reservationGranted => 2 | .reservationLost => 3 | .controllerFree => 4
  | .driveReady => 5 | .driveFenced => 6 | .fenceReleased => 7 | .trackRelocated => 8 | .spareAdvised => 9
  | .sparesLow => 10 | .bufferDataLost => 11 | .suspectListFull => 12

/-- Two items have the same identity (R47): the same kind and identity fields. -/
def ItemBody.same : ItemBody → ItemBody → Bool
  | .trackRelocated d h _, .trackRelocated e k _ => d == e && h == k
  | .bufferDataLost d h _, .bufferDataLost e k _ => d == e && h == k
  | .ending _ c, .ending _ e => c == e
  | .reconnect _ c _ _, .reconnect _ e _ _ => c == e
  | a, b => a == b

/-- A pending item's content after a newer occurrence of the same identity (R48). -/
def ItemBody.merge : ItemBody → ItemBody → ItemBody
  | .bufferDataLost d h xs, .bufferDataLost _ _ ys => .bufferDataLost d h (rising (xs ++ ys))
  | .trackRelocated d h _, .trackRelocated _ _ o => .trackRelocated d h o
  | a, _ => a

/-- Kinds that overflow may drop (R51). -/
def ItemKind.droppable : ItemKind → Bool
  | .driveReady | .fenceReleased | .trackRelocated | .spareAdvised | .bufferDataLost | .suspectListFull => true
  | _ => false

/-- The level of a kind in a link's Notice Priority Table (R52). -/
def levelOf (s : State) (l : LinkNo) (k : ItemKind) : Fin 16 := (s.present.get l).levels.get k.place

/-- The item is the one on offer (R53). -/
def onOffer (s : State) (l : LinkNo) (i : Item) : Bool := (s.port l).state == .offering i.age

/-- The item on offer (R53). -/
def offered (s : State) (l : LinkNo) : Option Item :=
  match (s.port l).state with
  | .offering age => (s.present.get l).items.find? fun i => i.age == age
  | _ => none

/-- The item of highest level among those given, the oldest among equal levels (R54). -/
def highest (level : Item → Fin 16) : List Item → Option Item
  | [] => none
  | i :: r =>
    match highest level r with
    | some j => if level i < level j then some j else some i
    | none => some i

/-- The unit of an item: its drive, or 15 for a controller kind (R46, R55). -/
def ItemBody.unit : ItemBody → BitVec 4
  | .controllerFree | .suspectListFull => BitVec.ofNat 4 Config.controllerUnit
  | .ending d _ | .reconnect d _ _ _ | .reservationGranted d | .reservationLost d | .driveReady d | .driveFenced d | .fenceReleased d | .sparesLow d
  | .trackRelocated d _ _ | .spareAdvised d _ | .bufferDataLost d _ _ => BitVec.ofNat 4 d.val

/-- The detail of a Status Frame (R24, R37): the sense record, if one was taken. -/
def senseDetail : Option SenseRecord → Detail
  | some r => .sense r
  | none => .none

/-- The conditions whose Ending carries a sector list (R37). -/
def Condition.listsSectors : Condition → Bool
  | .dataCheck | .lostSector | .bufferCheck | .writeCheck => true
  | _ => false

/-- The Status Frame of a chain's ending (R37). -/
def endingFrame (x : Context) : StatusFrame where
  unit := BitVec.ofNat 4 x.drive.val
  tag := some x.tag
  kind := .ending
  cond := x.ending.map (·.cond)
  entry := x.ending.bind (·.entry)
  sectors := x.ending.bind fun e => if e.cond.listsSectors then some e.sectors else none
  detail := senseDetail x.sense

/-- The detail a notice carries when it is sent (R55). -/
def noticeDetail (s : State) : ItemBody → Detail
  | .driveFenced d | .sparesLow d => .sense (senseOf s d)
  | .trackRelocated _ h o => .homeOutcome h o
  | .spareAdvised _ h | .bufferDataLost _ h _ => .home h
  | _ => .none

/-- The sector list a notice carries (R55). -/
def noticeSectors : ItemBody → Option (List SectorNo)
  | .bufferDataLost _ _ xs => some xs
  | _ => none

/-- The frame that offers an item (R54, R55). -/
def offerFrame (s : State) (i : Item) : HostFrame :=
  match i.body with
  | .reconnect _ c dir n => .reconnect (match s.ctx c with | some x => x.tag | none => 0#8) dir n
  | .ending _ c =>
    match s.ctx c with
    | some x => .status (endingFrame x)
    | none => .status ⟨i.body.unit, none, .ending, none, none, none, .none⟩
  | b => .status ⟨b.unit, none, b.kind, none, none, noticeSectors b, noticeDetail s b⟩

/-- The pending items whose level is above the floor (R54). -/
def offerable (s : State) (l : LinkNo) : List Item :=
  (s.present.get l).items.filter fun i => (s.port l).floor < levelOf s l i.body.kind

/-- The choice of R54: an IDLE link offers the item of highest level above its floor. -/
def choose (l : LinkNo) (s : State) : State :=
  match (s.port l).state with
  | .idle =>
    match highest (fun i => levelOf s l i.body.kind) (offerable s l) with
    | some i => (s.frame l (offerFrame s i)).modPort l fun p => { p with state := .offering i.age }
    | none => s
  | _ => s

/-- The link enters IDLE, and the choice follows (R54). -/
def goIdle (l : LinkNo) (s : State) : State := choose l (s.modPort l fun p => { p with state := .idle })

/-- The floor changes (R59). -/
def setFloor (l : LinkNo) (f : Fin 16) (s : State) : State := s.modPort l fun p => { p with floor := f }

/-- Replaces the items of a link's set. -/
def setItems (l : LinkNo) (xs : List Item) (s : State) : State := s.modPresent l fun p => { p with items := xs }

/-- The item that overflow drops, if any: of the lowest level, the oldest among equal levels (R51). -/
def victim (level : Item → Fin 16) : List Item → Option Item
  | [] => none
  | i :: r =>
    match victim level r with
    | some j => if level j < level i then some j else some i
    | none => some i

/-- A new item joins the set; a full set makes room by R51. -/
def joinSet (l : LinkNo) (b : ItemBody) (s : State) : State :=
  let p := s.present.get l
  let new : Item := ⟨p.nextAge, b, false⟩
  let items := p.items ++ [new]
  let kept :=
    if p.items.length < Config.setPlaces then items
    else
      match victim (fun i => levelOf s l i.body.kind)
          (items.filter fun i => i.body.kind.droppable && !onOffer s l i) with
      | some v => items.filter fun i => i != v
      | none => items
  s.modPresent l fun q => { q with items := kept, nextAge := q.nextAge + 1 }

/-- Raises an item on one link (R48). Nothing is raised on a DOWN link. -/
def raise (l : LinkNo) (b : ItemBody) (s : State) : State :=
  if (s.port l).state = .down then s
  else
    let items := (s.present.get l).items
    if items.any fun i => !onOffer s l i && i.body.same b then
      choose l (setItems l (items.map fun i =>
        if !onOffer s l i && i.body.same b then { i with body := i.body.merge b } else i) s)
    else choose l (joinSet l b s)

/-- Raises an item on several links, in rising order (log 37). -/
def raiseOn (ls : List LinkNo) (b : ItemBody) (s : State) : State := each ls (fun l => raise l b) s

/-- Links ALLOWED on a drive (R49). -/
def allowedLinks (s : State) (d : DriveNo) : List LinkNo := allLinks.filter fun l => s.allowed l d

/-- Raises a notice of a drive on every link ALLOWED on it (R49). -/
def raiseDrive (d : DriveNo) (b : ItemBody) (s : State) : State := raiseOn (allowedLinks s d) b s

/-- An item of this identity is withdrawn: a pending one leaves the set; an offered one leaves it and the link goes
IDLE (R60). -/
def withdraw (l : LinkNo) (b : ItemBody) (s : State) : State :=
  match offered s l with
  | some i =>
    let t := setItems l ((s.present.get l).items.filter fun j => !(j.body.same b)) s
    if i.body.same b then goIdle l t else t
  | none => setItems l ((s.present.get l).items.filter fun j => !(j.body.same b)) s

/-- The condition of a level item ends on one link: pending items leave, an offered one is marked (R50). -/
def endLevelOn (b : ItemBody) (l : LinkNo) (s : State) : State :=
  let items := (s.present.get l).items
  setItems l ((items.filter fun i => onOffer s l i || !(i.body.same b)).map fun i =>
    if i.body.same b then { i with ended := true } else i) s

/-- The condition of a level item ends (R50). -/
def endLevel (b : ItemBody) (s : State) : State := each allLinks (endLevelOn b) s

/-- The offered item returns to the pending items: an ended level item leaves, and a pending item of the same
identity merges into the returned one (R50, R57). -/
def returnItem (l : LinkNo) (i : Item) (s : State) : State :=
  let items := (s.present.get l).items
  if i.ended then setItems l (items.filter fun j => j.age != i.age) s
  else
    match items.find? fun j => j.age != i.age && j.body.same i.body with
    | some j =>
      setItems l ((items.filter fun k => k.age != j.age).map fun k =>
        if k.age = i.age then { k with body := k.body.merge j.body } else k) s
    | none => s

/-- A Defer of the offered item, or the expiry of the Offer Timeout (R57, R58). -/
def putOff (l : LinkNo) (s : State) : State :=
  match offered s l with
  | some i => goIdle l (returnItem l i (setFloor l (levelOf s l i.body.kind) s))
  | none => s

/-- The link's set is cleared (R46). -/
def clearSet (l : LinkNo) (s : State) : State := setItems l [] s

/-- CONTROLLER-FREE on every link of the Context Wait List, which empties (R26). -/
def controllerFree (s : State) : State :=
  raiseOn s.ctxWait .controllerFree { s with ctxWait := [] }

/-- A context becomes FREE, which acts on the Context Wait List (R26, R27). -/
def freeCtx (c : CtxNo) (s : State) : State := controllerFree (s.setCtx c none)

/-- Links on which BUFFER-DATA-LOST of a buffer is raised (R49). -/
def lossLinks (s : State) (w : Option LinkNo) (d : DriveNo) : List LinkNo :=
  match w with
  | some l => if (s.port l).state = .down then allowedLinks s d else [l]
  | none => allowedLinks s d

/-- BUFFER-DATA-LOST for a buffer with the sectors lost (R137). -/
def dataLost (b : BufNo) (xs : List SectorNo) (s : State) : State :=
  match (s.buffer b).assigned with
  | some (d, h) => raiseOn (lossLinks s (s.buffer b).lastWriter d) (.bufferDataLost d h xs) s
  | none => s

end Sys2Proof.Machine
end

