-- ==== Sys2Proof/Machine/Reservation.lean ====
section
/-! DEFINITION. Paths and reservations (chapter 4). -/

namespace Sys2Proof.Machine

/-- The hand-off: a cleared reservation passes to the first waiter, if any (R75). -/
def handOff (d : DriveNo) (s : State) : State :=
  match (s.resv.get d).waitList with
  | [] => s
  | l :: rest => raise l (.reservationGranted d) (s.modResv d fun _ => ⟨some l, rest⟩)

/-- The holder is cleared and the hand-off runs (R74 to R78). -/
def clearHolder (d : DriveNo) (s : State) : State := handOff d (s.modResv d fun r => { r with holder := none })

/-- A link leaves the wait list of a drive (R67, R74, R77). -/
def leaveWait (l : LinkNo) (d : DriveNo) (s : State) : State :=
  s.modResv d fun r => { r with waitList := r.waitList.filter fun k => k != l }

/-- RESERVE in either mode, for a link and a drive: the entry's result, none when it completes (R71 to R73). -/
def reserveResult (s : State) (l : LinkNo) (d : DriveNo) (wait : Bool) : Option Condition :=
  if s.allowed l d = false then some .reservedElsewhere
  else
    match (s.resv.get d).holder with
    | none => none
    | some h => if h = l then none else if wait then some .reserveQueued else some .reservedElsewhere

/-- The effect of RESERVE on the Reservation Record (R71 to R73). -/
def reserve (l : LinkNo) (d : DriveNo) (wait : Bool) (s : State) : State :=
  if s.allowed l d = false then s
  else
    match (s.resv.get d).holder with
    | none => s.modResv d fun r => { r with holder := some l }
    | some h =>
      if h = l then s
      else if wait ∧ (s.resv.get d).waitList.contains l = false then
        s.modResv d fun r => { r with waitList := r.waitList ++ [l] }
      else s

/-- RELEASE for a link and a drive: the entry's result, none when it completes (R73, R74). -/
def releaseResult (s : State) (l : LinkNo) (d : DriveNo) : Option Condition :=
  if s.allowed l d ∧ ((s.resv.get d).holder = some l ∨ (s.resv.get d).waitList.contains l) then none
  else some .releaseNotHeld

/-- The effect of RELEASE on the Reservation Record (R73, R74). -/
def release (l : LinkNo) (d : DriveNo) (s : State) : State :=
  if s.allowed l d = false then s
  else if (s.resv.get d).holder = some l then clearHolder d s
  else if (s.resv.get d).waitList.contains l then leaveWait l d s
  else s

/-- The reservation is taken from its holder: cleared, RESERVATION-LOST raised, and handed on (R67, R76). -/
def takeAway (l : LinkNo) (d : DriveNo) (s : State) : State :=
  handOff d (raise l (.reservationLost d) (s.modResv d fun r => { r with holder := none }))

/-- A link loses its path to a drive (R67). -/
def losePath (l : LinkNo) (d : DriveNo) (s : State) : State :=
  if (s.resv.get d).holder = some l then takeAway l d s else leaveWait l d s

/-- A link's reservation and wait-list place of one drive are given up (R77). -/
def loseReservation (l : LinkNo) (d : DriveNo) (s : State) : State :=
  if (s.resv.get d).holder = some l then clearHolder d s else leaveWait l d s

/-- Every reservation and wait-list place of a link is given up, in rising drive number (R77, R78). -/
def loseReservations (l : LinkNo) (s : State) : State := each allDrives (loseReservation l) s

end Sys2Proof.Machine
end

