-- ==== Sys2Proof/Machine/Buffers.lean ====
section
/-! DEFINITION. The Buffer Store (chapter 7): allocation and waiting, stores, staging suspended and resumed, destage
items, pins, parity and the Error Capture Record. -/

namespace Sys2Proof.Machine

/-- An item joins a drive's Request Queue at the newest end with pass count 0; an IDLE arm makes a selection
(R83, R87). -/
def joinQueue (d : DriveNo) (w : Work) (home : HomeTrack) (s : State) : State :=
  let t := s.modSched d fun q =>
    { q with queue := q.queue ++ [⟨w, home, q.nextRank, 0⟩], nextRank := q.nextRank + 1 }
  if (s.drive d).arm = .idle then t.later [.select d] else t

/-- An item leaves a Request Queue other than by selection (R84). -/
def leaveQueue (d : DriveNo) (w : Work) (s : State) : State :=
  s.modSched d fun q => { q with queue := q.queue.filter fun i => i.work != w }

/-- A buffer is DIRTY with Destage NONE (R130). -/
def wantsItem (s : State) (b : BufNo) : Bool := (s.buffer b).state == .dirty && (s.buffer b).destage == .none

/-- A DIRTY buffer with Destage NONE is given a destage item (R130). -/
def giveItem (b : BufNo) (s : State) : State :=
  match wantsItem s b, (s.buffer b).assigned with
  | true, some (d, h) => joinQueue d (.destage b) h (s.modBuffer b fun r => { r with destage := .queued })
  | _, _ => s

/-- Several buffers are given their items, all of which join before the selection that the rule names after them
(R18, R87; log 15). -/
def joinTogether (bs : List BufNo) (s : State) : State := each bs giveItem s

/-- The arm of the drive to which a buffer is assigned is IDLE (R87). -/
def findsIdle (s : State) (b : BufNo) : Bool :=
  match (s.buffer b).assigned with
  | some (d, _) => (s.drive d).arm == .idle
  | none => false

/-- Several buffers are given their items one after the other: the first to join an IDLE arm is selected for before the
next joins (R87; log 15). -/
def joinInTurn (bs : List BufNo) (s : State) : State :=
  each bs (fun b t => if findsIdle t b then t.later [.giveItem b] else giveItem b t) s

/-- Some context of the drive is in the flush wait (R133). -/
def flushWaiting (s : State) (d : DriveNo) : Bool :=
  !(ctxsWhere s fun x => x.drive == d && x.state == .waitStore .flush).isEmpty

/-- Each DIRTY buffer of the drive with Destage NONE is given an item, in rising buffer number (R130, R133). -/
def flushItems (d : DriveNo) (s : State) : State :=
  joinInTurn (allBufs.filter fun b => (s.buffer b).ofDrive d && wantsItem s b) s

/-- Each unpinned DIRTY buffer of the drive with Destage NONE is given an item, in rising buffer number; `join` says
how they join (R19, R129, R130). -/
def throughItems (join : List BufNo → State → State) (d : DriveNo) (s : State) : State :=
  join (allBufs.filter fun b => (s.buffer b).ofDrive d && wantsItem s b && !pinned s b) s

/-- The reclaim of R124: the least recently used candidate is given a destage item. -/
def reclaim (s : State) : State :=
  match s.lru.find? fun b => wantsItem s b && !pinned s b &&
      (match (s.buffer b).assigned with | some (d, _) => (s.drive d).arm != .fenced | none => false) with
  | some b => giveItem b s
  | none => s

/-- Waiters leave the Buffer Wait List without being served; the others keep their order (R123). -/
def unlist (gone : Waiter → Bool) (s : State) : State := { s with bufWait := s.bufWait.filter fun w => !(gone w) }

/-- The reclaim check of R124. -/
def reclaimCheck (s : State) : State :=
  if !s.bufWait.isEmpty && !(allBufs.any fun b => (s.buffer b).destage != .none && !pinned s b) then reclaim s else s

/-- A buffer moves to the most recently used end (R120). -/
def touch (b : BufNo) (s : State) : State := { s with lru := (s.lru.filter fun x => x != b) ++ [b] }

/-- A buffer becomes EMPTY: every field but the number and the parity-force flag is cleared (R119). -/
def emptyBuffer (b : BufNo) (s : State) : State :=
  s.modBuffer b fun r => { Buffer.powerOn with parityForce := r.parityForce }

/-- An EMPTY or unpinned CLEAN buffer (R123). -/
def available (s : State) (b : BufNo) : Bool :=
  (s.buffer b).state == .empty || ((s.buffer b).state == .clean && !pinned s b)

/-- The buffer already assigned to a drive and home track (step 1 of R122). -/
def holderOf (s : State) (d : DriveNo) (h : HomeTrack) : Option BufNo :=
  allBufs.find? fun b => (s.buffer b).assigned == some (d, h)

/-- The buffer that steps 2 and 3 of R122 take: the lowest-numbered EMPTY one, or the least recently used unpinned
CLEAN one. -/
def newPlace (s : State) : Option BufNo :=
  match allBufs.find? fun b => (s.buffer b).state == .empty with
  | some b => some b
  | none => s.lru.find? (available s)

/-- Direction to controller of a link's connection to a context (R53). -/
def stagingLink (s : State) (c : CtxNo) : Option LinkNo :=
  allLinks.find? fun l => (s.port l).state == .connected c .toController

/-- Staging of a context into its buffer is suspended (R127). -/
def suspendCtx (c : CtxNo) (s : State) : State :=
  match s.ctx c with
  | some x =>
    let t := s.modCtx c fun y => { y with state := .waitStore .bufferFree }
    match x.state, x.link with
    | .staging, some l => withdraw l (.reconnect x.drive c .toController 0) t
    | _, _ =>
      match stagingLink s c with
      | some l => goIdle l t
      | none => t
  | none => s

/-- Staging under way into a buffer is suspended (R127): one context after another in order of acceptance, each link
that is cut or loses its offer making its choice before the next context is taken (log 48). -/
def suspendStaging (b : BufNo) (s : State) : State :=
  each ((ctxsWhere s fun x => x.buffer == some b && (x.state == .staging || x.state == .connected)).filter fun c =>
    (match s.ctx c with | some x => x.state == .staging | none => false) || (stagingLink s c).isSome) suspendCtx s

/-- The STEP's link, tag and kind as the Error Capture Record names them (R135). -/
def Context.capturedBy (x : Context) (dir : Transfer) : CaptureBy :=
  match dir with
  | .read => .read x.link x.tag
  | .write => .write x.link x.tag

/-- Staging begins or resumes: a RECONNECT for the expected sectors not yet stored (R30, R127). -/
def stage (c : CtxNo) (s : State) : State :=
  match s.ctx c with
  | some x =>
    let t := s.modCtx c fun y => { y with state := .staging }
    match x.link with
    | some l => raise l (.reconnect x.drive c .toController x.expected.length) t
    | none => t
  | none => s

/-- When a buffer is neither DESTAGING nor pinned by a relocation, the contexts that wait for that go on, in order of
acceptance (R121, R127, R131). -/
def resumeStaging (b : BufNo) (s : State) : State :=
  if (s.buffer b).state = .destaging ∨ (s.buffer b).relocPin then s
  else each (ctxsWhere s fun x => x.buffer == some b && x.state == .waitStore .bufferFree) stage s

/-- A buffer is assigned to a requester and its pin is taken (R122, R156). What follows is put off. -/
def assign (who : Requester) (d : DriveNo) (b : BufNo) (s : State) : State :=
  let t := touch b s
  match who with
  | .context c =>
    (t.modCtx c fun x => { x with buffer := some b, state := .waitStore .goingOn }).later [.assigned c]
  | .relocation =>
    (suspendStaging b ((t.modTracks d fun k =>
      { k with reloc := k.reloc.map fun r => { r with buffer := some b } }).modBuffer b fun r =>
      { r with relocPin := true })).later [.holdBuffer d]

/-- Steps 1 to 3 of R122; none when they do not apply. -/
def allocate (w : Waiter) (s : State) : Option State :=
  match holderOf s w.drive w.home with
  | some b => some (assign w.who w.drive b s)
  | none =>
    match newPlace s with
    | some b => some (assign w.who w.drive b ((emptyBuffer b s).modBuffer b fun r =>
        { r with assigned := some (w.drive, w.home) }))
    | none => none

/-- A requester asks for its buffer (R122); at step 4 it joins the Buffer Wait List and reclaim runs. -/
def request (w : Waiter) (s : State) : State :=
  match allocate w s with
  | some t => t
  | none => reclaim { s with bufWait := s.bufWait ++ [w] }

/-- One waiter taken off the list is given its buffer. -/
def serveWaiter (w : Waiter) (s : State) : State := (allocate w s).getD s

/-- The service of the Buffer Wait List (R123), at most as often as the given number. -/
def serveTimes : Nat → State → State
  | 0, s => s
  | n + 1, s =>
    match s.bufWait with
    | [] => s
    | w :: rest =>
      if allBufs.any (available s) then
        let same := fun v : Waiter => v.drive == w.drive && v.home == w.home
        serveTimes n (each (w :: rest.filter same) serveWaiter { s with bufWait := rest.filter fun v => !(same v) })
      else s

/-- The Buffer Wait List is served while it is not empty and a buffer is available (R123). -/
def serve (s : State) : State := serveTimes s.bufWait.length s

/-- The flush wait of a drive is tested, and completes when no buffer of the drive is DIRTY or DESTAGING (R133). -/
def flushTest (d : DriveNo) (s : State) : State :=
  if allBufs.any fun b => (s.buffer b).ofDrive d && ((s.buffer b).state == .dirty || (s.buffer b).state == .destaging)
  then s
  else each (ctxsWhere s fun x => x.drive == d && x.state == .waitStore .flush)
    (fun c t => (t.modCtx c fun x => { x with state := .waitStore .goingOn, cur := x.cur + 1 }).later [.walk c]) s

/-- A buffer of a drive is emptied, and the drive's flush wait is tested (R119, R133). -/
def emptyOf (d : DriveNo) (b : BufNo) (s : State) : State := flushTest d (emptyBuffer b s)

/-- The Retain rule (R128). -/
def retainRule (b : BufNo) (s : State) : State :=
  match (s.buffer b).assigned with
  | some (d, _) =>
    if (s.buffer b).state = .clean ∧ pinned s b = false ∧ (s.policy d).retain = false then emptyOf d b s else s
  | none => s

/-- What the Buffer Store does when the last pin of a buffer goes: the four steps of R121, the reclaim check always
(log 42). -/
def afterUnpin (b : BufNo) (s : State) : State :=
  if pinned s b then s
  else
    match (s.buffer b).assigned with
    | some (d, _) =>
      let t := if wantsItem s b ∧ (s.policy d).writeMode = .through then giveItem b s else s
      let u := retainRule b t
      reclaimCheck (if available u b then serve u else u)
    | none => s

/-- A DIRTY buffer has lost its last dirty sector other than by its own destage: a QUEUED item is withdrawn, the Retain
rule applies, flush waits are tested and the wait list is served (R119, R123, R130, R133). -/
def leftDirty (b : BufNo) (s : State) : State :=
  match (s.buffer b).assigned with
  | some (d, _) =>
    if (s.buffer b).state = .clean then
      let queued := (s.buffer b).destage == .queued
      let t :=
        if queued then leaveQueue d (.destage b) (s.modBuffer b fun r => { r with destage := .none }) else s
      let u := flushTest d (retainRule b t)
      let v := if available u b then serve u else u
      if queued then reclaimCheck v else v
    else s
  | none => s

/-- A write pass into the buffer's sector is noted when a Data Frame is stored after its data left (R113). -/
def noteStored (b : BufNo) (x : SectorNo) (s : State) : State :=
  { s with path := { s.path with grant := s.path.grant.map fun p =>
      if p.dir = .write ∧ p.buffer = b ∧ p.first ≤ x ∧ x.val < p.first.val + p.begun
      then { p with stored := p.stored ++ [x] } else p } }

/-- A store into a buffer: with good parity, or with bad parity when the parity-force flag is set, which it consumes
(R126, R136). -/
def storeCell (b : BufNo) (x : SectorNo) (data : List Byte) (dirty : Bool) (s : State) : State :=
  s.modBuffer b fun r => { r with cells := putCell x ⟨data, dirty, r.parityForce⟩ r.cells, parityForce := false }

/-- A staging Data Frame is stored (R126). An outstanding flush wait gives the buffer an item as it becomes DIRTY
(R133). -/
def storeFrame (l : LinkNo) (b : BufNo) (x : SectorNo) (data : List Byte) (s : State) : State :=
  let t := noteStored b x ((storeCell b x data true s).modBuffer b fun r => { r with lastWriter := some l })
  match (s.buffer b).assigned with
  | some (d, _) => if (s.buffer b).state = .clean ∧ flushWaiting t d ∧ wantsItem t b then giveItem b t else t
  | none => t

/-- A WRITTEN result makes a sector clean (R113). -/
def cleanSector (b : BufNo) (x : SectorNo) (s : State) : State :=
  let dirtyBefore := (s.buffer b).state == .dirty
  let t := s.modBuffer b fun r => { r with cells := cleanCell x r.cells }
  if dirtyBefore then leftDirty b t else t

/-- The Error Capture Record takes a failure (R135). -/
def capture (k : Capture) (s : State) : State :=
  match s.capture with
  | none => { s with capture := some k }
  | some _ => { s with further := upTo Config.furtherMax s.further }

/-- A sector fails its parity check as it leaves a buffer: the failure is recorded, the sector invalidated,
BUFFER-DATA-LOST raised for a dirty one, and a buffer left without dirty sectors handled (R134). -/
def parityFailure (b : BufNo) (x : SectorNo) (toDrive : Bool) (by_ : CaptureBy) (s : State) : State :=
  match (s.buffer b).assigned with
  | some (d, h) =>
    let wasDirty := (s.buffer b).holdsDirty x
    let dirtyBefore := (s.buffer b).state == .dirty
    let t := capture ⟨b, d, h, x, toDrive, by_, wasDirty⟩ s
    let u := t.modBuffer b fun r => { r with cells := dropCell x r.cells }
    let v := if wasDirty then dataLost b [x] u else u
    if dirtyBefore then leftDirty b v else v
  | none => s

/-- A context's pin is released and its buffer field cleared (R36, R37, R120, R121). -/
def unpin (c : CtxNo) (s : State) : State :=
  match (s.ctx c).bind (·.buffer) with
  | some b => afterUnpin b (touch b (s.modCtx c fun x => { x with buffer := none }))
  | none => s

/-- A relocation's pin is cleared, and the Buffer Store applies R121 and resumes staging (R121, R161). -/
def clearRelocPin (b : BufNo) (s : State) : State :=
  resumeStaging b (afterUnpin b (touch b (s.modBuffer b fun r => { r with relocPin := false })))

/-- The end of a destage of a drive, after the arm has been released: the Retain rule, the requesters that wait for
this buffer, flush waits, and the Buffer Wait List (R131). -/
def destageEnded (d : DriveNo) (b : BufNo) (s : State) : State :=
  let t := retainRule b s
  let u := flushTest d (resumeStaging b (if (t.buffer b).relocPin then t.later [.holdBuffer d] else t))
  if available u b then serve u else u

/-- A destage was stopped or cut and its buffer has left DESTAGING: a new item where THROUGH mode or a flush wait gives
one, the requesters that wait go on, and the reclaim check is made (R129, R132, R133). -/
def destageStopped (b : BufNo) (s : State) : State :=
  match (s.buffer b).assigned with
  | some (d, _) =>
    if (s.buffer b).state = .clean then destageEnded d b s
    else
      let t :=
        if wantsItem s b ∧ (((s.policy d).writeMode = .through ∧ pinned s b = false) ∨ flushWaiting s d)
        then giveItem b s else s
      let u := resumeStaging b (if (t.buffer b).relocPin then t.later [.holdBuffer d] else t)
      reclaimCheck u
  | none => s

end Sys2Proof.Machine
end

