-- ==== Sys2Proof/Machine/Tracks.lean ====
section
/-! DEFINITION. Alternate tracks and suspect tracks (chapters 8 and 9): spares-low, the relocation's record and
outcomes, and the Suspect Track List. -/

namespace Sys2Proof.Machine

/-- The spares-low condition is evaluated (R152). -/
def evalSpares (d : DriveNo) (s : State) : State :=
  let t := s.track d
  let low := t.map == .loaded && decide (spareCount t .free ≤ (s.policy d).spareLowMark)
  if low ∧ t.sparesLow = false then
    raiseDrive d (.sparesLow d) (s.modTracks d fun k => { k with sparesLow := true })
  else if low = false ∧ t.sparesLow then
    endLevel (.sparesLow d) (s.modTracks d fun k => { k with sparesLow := false })
  else s

/-- The spares-low condition ends because the map leaves LOADED (R152). -/
def endSparesLow (d : DriveNo) (s : State) : State :=
  if (s.track d).sparesLow then endLevel (.sparesLow d) (s.modTracks d fun k => { k with sparesLow := false }) else s

/-- Every MAP cursor that names the drive becomes stale (R148). -/
def staleMapCursors (d : DriveNo) (s : State) : State :=
  each allLinks (fun l t => t.modPort l fun p => { p with cursor := p.cursor.map fun k =>
    match k with
    | .map e last stale => .map e last (stale || e == d)
    | other => other }) s

/-- Every SUSPECT cursor becomes stale (R174). -/
def staleSuspectCursors (s : State) : State :=
  each allLinks (fun l t => t.modPort l fun p => { p with cursor := p.cursor.map fun k =>
    match k with
    | .suspect last _ => .suspect last true
    | other => other }) s

/-- The suspect entry is for this drive and home track (R167). -/
def Suspect.isFor (e : Suspect) (d : DriveNo) (h : HomeTrack) : Bool := e.drive == d && e.home == h

/-- The suspect entry of a drive and home track (R167). -/
def suspectOf (s : State) (d : DriveNo) (h : HomeTrack) : Option Suspect := s.suspects.find? fun e => e.isFor d h

/-- Entries leave the Suspect Track List; the others close up, and cursors become stale if any left (R167, R174). -/
def removeSuspects (gone : Suspect → Bool) (s : State) : State :=
  if s.suspects.any gone then staleSuspectCursors { s with suspects := s.suspects.filter fun e => !(gone e) } else s

/-- Changes the entry of a drive and home track. -/
def modSuspect (d : DriveNo) (h : HomeTrack) (f : Suspect → Suspect) (s : State) : State :=
  { s with suspects := s.suspects.map fun e => if e.isFor d h then f e else e }

/-- A data check or write check is reported (R168). -/
def report (d : DriveNo) (h : HomeTrack) (s : State) : State :=
  if (s.track d).map ≠ .loaded then s
  else if (suspectOf s d h).isSome then
    (modSuspect d h (fun e => { e with count := upTo Config.countMax e.count }) s).later [.threshold d h]
  else if s.suspects.length < Config.suspectPlaces then
    State.later [.threshold d h] { s with suspects := s.suspects ++ [⟨d, h, 1, .detected, false, false⟩] }
  else raiseOn (allLinks.filter fun l => (s.port l).state != .down) .suspectListFull s

/-- The threshold test (R169). -/
def threshold (d : DriveNo) (h : HomeTrack) (s : State) : State :=
  match suspectOf s d h with
  | none => s
  | some e =>
    if e.blocked ∨ e.count < (s.policy d).spareThreshold then s
    else if (s.policy d).autoSpare = false then raiseDrive d (.spareAdvised d h) s
    else
      match (s.track d).reloc with
      | none => s.later [.createRelocation d h]
      | some r => if r.home = h then s else modSuspect d h (fun e => { e with spareDue := true }) s

/-- The Relocation Record of the drive has become free (R170). -/
def recordFree (d : DriveNo) (s : State) : State :=
  match s.suspects.find? fun e => e.drive == d && e.spareDue with
  | none => s
  | some e =>
    if (s.drive d).arm = .notReady ∨ (s.track d).map ≠ .loaded then s
    else if (s.policy d).autoSpare then
      (modSuspect d e.home (fun k => { k with spareDue := false }) s).later [.createRelocation d e.home]
    else
      each (s.suspects.filter fun k => k.drive == d && k.spareDue)
        (fun k t => raiseDrive d (.spareAdvised d k.home) t)
        { s with suspects := s.suspects.map fun k => if k.drive = d then { k with spareDue := false } else k }

/-- The outcome of a relocation acts on the suspect entry, raises TRACK-RELOCATED and evaluates SPARES-LOW, the last
except under NOT-READY (R161, R162, R163, R171). -/
def relocOutcome (d : DriveNo) (h : HomeTrack) (o : RelocOutcome) (s : State) : State :=
  let t :=
    match o with
    | .relocated => removeSuspects (fun e => e.isFor d h) s
    | .failed => modSuspect d h (fun e => { e with blocked := true, spareDue := false }) s
    | .abandoned => s
  let u := raiseDrive d (.trackRelocated d h o) t
  if (u.drive d).arm = .notReady then u else evalSpares d u

/-- One spare changes its state (R143). -/
def setSpare (d : DriveNo) (i : SpareNo) (k : SpareState) (s : State) : State :=
  s.modTracks d fun t => { t with pool := put t.pool i k }

/-- The Relocation Record is changed. -/
def modReloc (d : DriveNo) (f : Relocation → Relocation) (s : State) : State :=
  s.modTracks d fun t => { t with reloc := t.reloc.map f }

/-- The Relocation Record is removed and its pin, if it holds one, is cleared (R161 to R163). -/
def removeRecord (d : DriveNo) (r : Relocation) (s : State) : State :=
  let t := s.modTracks d fun k => { k with reloc := none }
  match r.buffer with
  | some b => clearRelocPin b t
  | none => t

/-- A relocation is created (R154): it fails at once with no FREE spare, and otherwise asks for its buffer. -/
def createRelocation (d : DriveNo) (h : HomeTrack) (s : State) : State :=
  let t := s.track d
  if t.map ≠ .loaded ∨ t.reloc.isSome then s
  else
    match freeSpare t with
    | none => s.later [.relocOutcome d h .failed, .recordFree d]
    | some _ =>
      request ⟨.relocation, d, h⟩ (s.modTracks d fun k =>
        { k with reloc := some ⟨h, translate t h, none, .waitBuffer, none, [], false⟩ })

/-- READ_OLD begins: the pending lost set takes the sectors of the entry's lost list that the buffer does not hold
valid and dirty (R157). -/
def beginReadOld (d : DriveNo) (b : BufNo) (s : State) : State :=
  modReloc d (fun r =>
    { r with
      phase := .readOld
      pending := (lostOf (s.track d) r.home).filter fun x => !(s.buffer b).holdsDirty x
      afresh := false }) s

/-- The arm takes a relocation: a READ_OLD that met a seek check is carried out from its beginning (R164; log 43). -/
def beginAgain (d : DriveNo) (s : State) : State :=
  match (s.track d).reloc with
  | some r =>
    match r.phase, r.afresh, r.buffer with
    | .readOld, true, some b => beginReadOld d b s
    | _, _, _ => s
  | none => s

/-- A relocation whose buffer is assigned and not DESTAGING holds it and enters READ_OLD (R156, R157). -/
def holdBuffer (d : DriveNo) (s : State) : State :=
  match (s.track d).reloc with
  | some r =>
    match r.phase, r.buffer with
    | .waitBuffer, some b =>
      if (s.buffer b).state = .destaging then s else (beginReadOld d b s).later [.select d]
    | _, _ => s
  | none => s

/-- The outcome FAILED of a relocation that has a record (R162). The arm is released after it. -/
def relocFailed (d : DriveNo) (r : Relocation) (s : State) : State :=
  (removeRecord d r s).later [.relocOutcome d r.home .failed, .recordFree d, .armIdle d]

/-- The lowest-numbered FREE spare is allocated for WRITE_NEW; with none, the outcome is FAILED (R158, R160). -/
def takeSpare (d : DriveNo) (s : State) : State :=
  match (s.track d).reloc with
  | some r =>
    match freeSpare (s.track d) with
    | some i =>
      (modReloc d (fun k => { k with newSpare := some i, phase := .writeNew }) (setSpare d i .allocated s)).later
        [.armIdle d]
    | none => relocFailed d r s
  | none => s

/-- READ_OLD ends: sectors still needed join the pending lost set, and the relocation enters WRITE_NEW (R157). -/
def readOldEnds (d : DriveNo) (left : List SectorNo) (s : State) : State :=
  takeSpare d (modReloc d (fun r => { r with pending := rising (r.pending ++ left) }) s)

/-- A spare fails: it is retired and the next is taken (R160). -/
def spareFails (d : DriveNo) (s : State) : State :=
  match (s.track d).reloc with
  | some r =>
    let t := match r.newSpare with | some i => setSpare d i .retired s | none => s
    takeSpare d (modReloc d (fun k => { k with newSpare := none }) t)
  | none => s

/-- WRITE_NEW has written the spare: VERIFY follows (R158). -/
def writeNewEnds (d : DriveNo) (s : State) : State :=
  (modReloc d (fun r => { r with phase := .verify }) s).later [.armIdle d]

/-- The map entry of a home track is created in home-track order or updated (R161). -/
def putEntry (e : MapEntry) (es : List MapEntry) : List MapEntry :=
  insertBy (fun k => k.home.key) e (es.filter fun k => k.home != e.home)

/-- COMMIT (R161): map entry, pool, buffer and record; then the suspect entry, the notice, SPARES-LOW, the free record
and the arm. -/
def commit (d : DriveNo) (s : State) : State :=
  match (s.track d).reloc with
  | some r =>
    match r.newSpare with
    | some i =>
      let t := setSpare d i .inUse (s.modTracks d fun k =>
        { k with entries := putEntry ⟨r.home, i, rising r.pending⟩ k.entries })
      let u := match r.old.spare with | some j => setSpare d j .retired t | none => t
      let v :=
        match r.buffer with
        | some b =>
          let w := u.modBuffer b fun k => { k with cells := cleanCells k.cells }
          if (s.buffer b).state = .dirty then leftDirty b w else w
        | none => u
      (removeRecord d r v).later [.relocOutcome d r.home .relocated, .recordFree d, .armIdle d]
    | none => s
  | none => s

/-- A relocation is abandoned (R163): its spare, its place on the wait list, its record and pin; then the notice,
SPARES-LOW and the free record. The record goes before the pin is cleared and before the notice (log 49). -/
def abandon (d : DriveNo) (s : State) : State :=
  match (s.track d).reloc with
  | some r =>
    let t := match r.newSpare with | some i => setSpare d i .free s | none => s
    (removeRecord d r (unlist (fun w => w.who == .relocation && w.drive == d) t)).later
      [.relocOutcome d r.home .abandoned, .recordFree d]
  | none => s

/-- A WRITTEN result takes the sector off the lost list of its entry (R151). -/
def written (d : DriveNo) (h : HomeTrack) (x : SectorNo) (s : State) : State :=
  s.modTracks d fun t => { t with entries := t.entries.map fun e =>
    if e.home = h then { e with lost := e.lost.filter fun y => y != x } else e }

end Sys2Proof.Machine
end

