-- ==== Sys2Proof/Machine/Arm.lean ====
section
/-! DEFINITION. The Drive Unit's arm and the Arm Scheduler (chapters 1 and 5): recalibration, entry to IDLE, selection,
settle, seek and arrival. -/

namespace Sys2Proof.Machine

/-- The sweep reversed (R91). -/
def Sweep.flip : Sweep → Sweep
  | .inward => .outward
  | .outward => .inward

/-- A recalibration starts (R8). -/
def startRecal (d : DriveNo) (why : RecalReason) (s : State) : State :=
  (s.modDrive d fun r =>
    { r with arm := .recalibrating, cyl := none, indexSeen := false, recalReason := some why }).order d .recalibrate

/-- A booking made for the drive is cancelled (R106). -/
def cancelBooking (d : DriveNo) (s : State) : State :=
  { s with path := { s.path with booking := s.path.booking.filter fun k => k.drive != d } }

/-- The grant of a drive ends (R109). -/
def clearGrant (d : DriveNo) (s : State) : State :=
  { s with path := { s.path with grant := s.path.grant.filter fun p => p.drive != d } }

/-- The selection record and the orientation record are removed, a booking with them (R86, R102, R106). -/
def dropSelection (d : DriveNo) (s : State) : State :=
  cancelBooking d ((s.modSched d fun q => { q with selection := none }).setOrient d none)

/-- A Pending Policy becomes current, with the effects of R19 (R18); `join` says how the items of THROUGH mode join. -/
def applyPolicy (join : List BufNo → State → State) (d : DriveNo) (s : State) : State :=
  match (s.drive d).pending with
  | none => s
  | some p =>
    let was := s.policy d
    let t := s.modDrive d fun r => { r with policy := p, pending := none }
    let u := if p.writeMode = .through ∧ was.writeMode = .deferred then throughItems join d t else t
    if p.spareLowMark = was.spareLowMark then u else evalSpares d u

/-- The arm enters IDLE (R87, R94): a Pending Policy becomes current and a selection follows. With the cylinder
UNKNOWN it recalibrates instead (R8). -/
def enterIdle (d : DriveNo) (s : State) : State :=
  let t := dropSelection d s
  match (s.drive d).cyl with
  | none => startRecal d .positionLost t
  | some _ => (applyPolicy joinTogether d (t.setArm d .idle)).later [.select d]

/-- The arm that served a selection is released (R94). -/
def armIdle (d : DriveNo) (s : State) : State :=
  match (s.drive d).arm with
  | .settling | .seeking | .orienting | .transferring => enterIdle d s
  | _ => s

/-- An item is eligible (R85). -/
def eligible (s : State) (d : DriveNo) (i : QueueItem) : Bool :=
  (match (s.track d).reloc with | some r => r.home != i.home | none => true) &&
  (match i.work with
    | .destage b => !(s.buffer b).relocPin
    | .step c => match (s.ctx c).bind (·.buffer) with | some b => !(s.buffer b).relocPin | none => true
    | .relocation _ => true)

/-- The physical track of a relocation's phase (R88). -/
def relocPhys (r : Relocation) : PhysTrack :=
  match r.phase, r.newSpare with
  | .writeNew, some i | .verify, some i => sparePhys i
  | _, _ => r.old

/-- The relocation as a candidate at step 1 of R89 (R95). -/
def relocItem (s : State) (d : DriveNo) : Option QueueItem :=
  match (s.track d).reloc with
  | some r =>
    match r.phase, r.buffer with
    | .readOld, some _ | .writeNew, some _ | .verify, some _ => some ⟨.relocation r.phase, r.home, 0, 0⟩
    | _, _ => none
  | none => none

/-- The physical track of a candidate (R88). -/
def physOf (s : State) (d : DriveNo) (i : QueueItem) : PhysTrack :=
  match i.work, (s.track d).reloc with
  | .relocation _, some r => relocPhys r
  | _, _ => translate (s.track d) i.home

/-- A cylinder lies ahead of the arm (R89). -/
def ahead (sweep : Sweep) (cur tgt : Fin 604) : Bool :=
  match sweep with
  | .inward => cur < tgt
  | .outward => tgt < cur

/-- A cylinder lies behind the arm (R91). -/
def behind (sweep : Sweep) (cur tgt : Fin 604) : Bool := ahead sweep.flip cur tgt

/-- Distance between two cylinders (R89). -/
def distance (a b : Fin 604) : Nat := (a.val - b.val) + (b.val - a.val)

/-- The nearest item, the oldest of equals, in a list in rank order (R89). -/
def nearest (dist : QueueItem → Nat) : List QueueItem → Option QueueItem
  | [] => none
  | i :: r =>
    match nearest dist r with
    | some j => if dist j < dist i then some j else some i
    | none => some i

/-- The selection order of R89. -/
def nextItem (s : State) (d : DriveNo) (cur : Fin 604) : Option QueueItem :=
  let items := (s.sched d).queue.filter (eligible s d)
  let cyl := fun i => (physOf s d i).cyl
  let dist := fun i => distance (cyl i) cur
  let limit := (s.policy d).passLimit
  (relocItem s d).or <|
    (if limit = 0 then none else items.find? fun i => limit ≤ i.passes).or <|
      (items.find? fun i => cyl i == cur).or <|
        (nearest dist (items.filter fun i => ahead (s.drive d).sweep cur (cyl i))).or <| nearest dist items

/-- Eligible items older than the selected one receive a pass (R90). -/
def givePasses (d : DriveNo) (i : QueueItem) (s : State) : State :=
  match i.work with
  | .relocation _ => s
  | _ => s.modSched d fun q => { q with queue := q.queue.map (fun k =>
      if eligible s d k ∧ k.rank < i.rank then { k with passes := upTo Config.countMax k.passes } else k) }

/-- Entering ORIENTING: the run of the next pass is set; the miss count of the selection is kept (R102, R107). -/
def orientTo (d : DriveNo) (o : Orient) (s : State) : State :=
  let miss := match s.orients.get d with | some k => k.miss | none => 0
  (s.setOrient d (some { o with miss := miss })).setArm d .orienting

/-- The next run of a destage after a sector, if any (R109). -/
def nextRun (b : Buffer) (after : Option SectorNo) : Option (SectorNo × SectorNo) :=
  match after with
  | none => b.runs.head?
  | some x => b.runs.find? fun r => x < r.1

/-- The destage ends (R131): Destage NONE, then the arm, then what follows, all of it ahead of the arm's next
selection (log 14). -/
def endDestage (d : DriveNo) (b : BufNo) (s : State) : State :=
  State.ahead [.destageEnded d b] (armIdle d) (s.modBuffer b fun r => { r with destage := .none, runs := [] })

/-- A destage orients for its next run, or ends (R107, R109). -/
def destageNext (d : DriveNo) (b : BufNo) (home : HomeTrack) (after : Option SectorNo) (s : State) : State :=
  match nextRun (s.buffer b) after with
  | some (x, y) => orientTo d ⟨.destage b, .write, b, home, x, y, [], 0, 0⟩ s
  | none => endDestage d b s

/-- The arm is on cylinder for a relocation phase (R157 to R159). READ_OLD needs the sectors that are neither valid in
the buffer nor pending as lost, and its first run goes from the lowest to the highest sector not valid (R107; log 25). -/
def relocArrives (d : DriveNo) (phase : RelocPhase) (s : State) : State :=
  match (s.track d).reloc with
  | some r =>
    match r.buffer, phase with
    | some b, .readOld =>
      let missing := allSectors.filter fun x => !((s.buffer b).valid.contains x)
      let needed := missing.filter fun x => !(r.pending.contains x)
      if needed.isEmpty then readOldEnds d [] s
      else orientTo d ⟨.relocation .readOld, .read, b, r.home, (firstLast missing).1, (firstLast missing).2, needed, 0, 0⟩ s
    | some b, .writeNew => orientTo d ⟨.relocation .writeNew, .write, b, r.home, 0, 15, [], 0, 0⟩ s
    | some b, .verify => orientTo d ⟨.relocation .verify, .read, b, r.home, 0, 15, allSectors, 0, 0⟩ s
    | _, _ => enterIdle d s
  | none => enterIdle d s

/-- The arm has arrived on cylinder with its selection (R11). -/
def arrived (d : DriveNo) (s : State) : State :=
  match (s.sched d).selection with
  | none => enterIdle d s
  | some k =>
    if k.detached then enterIdle d s
    else
      match k.work with
      | .step c => s.later [.walk c]
      | .destage b => destageNext d b k.home none s
      | .relocation p => relocArrives d p s

/-- The seek starts, or is done at once on the same cylinder (R10; log 13). -/
def startSeek (d : DriveNo) (s : State) : State :=
  match (s.sched d).selection with
  | none => enterIdle d s
  | some k =>
    if (s.drive d).cyl = some k.phys.cyl then arrived d (s.setArm d .seeking)
    else
      (s.modDrive d fun r => { r with arm := .seeking, seekTarget := some k.phys.cyl }).order d (.seek k.phys.cyl)

/-- A selected STEP's context becomes ACTIVE, a selected DESTAGE's buffer DESTAGING (R94, R131). A READ_OLD that is to
be carried out from its beginning begins here (R164). -/
def engage (d : DriveNo) (w : Work) (s : State) : State :=
  match w with
  | .step c => s.modCtx c fun x => { x with state := .active }
  | .destage b =>
    suspendStaging b (s.modBuffer b fun r => { r with destage := .running, runs := runsOf r.dirty })
  | .relocation _ => beginAgain d s

/-- The selection is made (R86, R90, R91, R94). -/
def selectItem (d : DriveNo) (cur : Fin 604) (i : QueueItem) (s : State) : State :=
  let phys := physOf s d i
  let back := behind (s.drive d).sweep cur phys.cyl
  let settle := (s.policy d).reversalSettle
  let t := givePasses d i s
  let u := (leaveQueue d i.work t).modSched d fun q =>
    { q with selection := some ⟨i.work, phys, back && settle != 0, if back then settle else 0, false, i.home, i.rank, i.passes⟩ }
  if back = false then startSeek d (engage d i.work u)
  else if settle = 0 then startSeek d (engage d i.work (u.modDrive d fun r => { r with sweep := r.sweep.flip }))
  else engage d i.work (u.setArm d .settling)

/-- A selection, when the arm is IDLE and there is work (R87, R89). -/
def select (d : DriveNo) (s : State) : State :=
  if (s.drive d).arm = .idle then
    match (s.drive d).cyl with
    | some cur =>
      match nextItem s d cur with
      | some i => selectItem d cur i s
      | none => s
    | none => s
  else s

/-- The settle has run its time: the sweep flips on a reversal and the seek starts (R92). -/
def settleEnds (d : DriveNo) (s : State) : State :=
  match (s.sched d).selection with
  | some k =>
    let t := if k.reversal then s.modDrive d fun r => { r with sweep := r.sweep.flip } else s
    startSeek d (t.modSched d fun q =>
      { q with selection := some { k with reversal := false, settle := 0 } })
  | none => enterIdle d s

/-- A SECTOR event counts towards the settle (R92). -/
def settleTick (d : DriveNo) (s : State) : State :=
  match (s.drive d).arm, (s.sched d).selection with
  | .settling, some k =>
    if k.settle ≤ 1 then settleEnds d s
    else s.modSched d fun q => { q with selection := some { k with settle := k.settle - 1 } }
  | _, _ => s

/-- A destage selection is cut short by a seek check or a fence: its item returns at its former rank and the buffer to
DIRTY (R96, R132). A buffer with no dirty sector left has nothing to write, and its item does not return (log 40). -/
def destageCut (d : DriveNo) (k : Selection) (b : BufNo) (s : State) : State :=
  if (s.buffer b).dirty.isEmpty then
    (s.modBuffer b fun r => { r with destage := .none, runs := [] }).later [.destageEnded d b]
  else
    ((s.modBuffer b fun r => { r with destage := .queued, runs := [] }).modSched d fun q =>
      { q with queue := insertBy (·.rank) ⟨.destage b, k.home, k.rank, k.passes⟩ q.queue }).later [.destageStopped b]

end Sys2Proof.Machine
end

