-- ==== Sys2Proof/Machine/Operands.lean ====
section
/-! DEFINITION. Reading the entries of a chain and the operand blocks of management operations from their bytes
(R21 to R23, R203). A reader answers none for a value out of range. -/

namespace Sys2Proof.Machine

/-- A drive number (R203). -/
def readDrive (b : Byte) : Option DriveNo := if h : b.toNat < 8 then some ⟨b.toNat, h⟩ else none

/-- A link code CL0 to CL3 (R201). -/
def readLink (b : Byte) : Option LinkNo := if h : b.toNat < 4 then some ⟨b.toNat, h⟩ else none

/-- A buffer number (R136, R138). -/
def readBuf (b : Byte) : Option BufNo := if h : b.toNat < 6 then some ⟨b.toNat, h⟩ else none

/-- A spare index (R146). -/
def readSpare (b : Byte) : Option SpareNo := if h : b.toNat < 40 then some ⟨b.toNat, h⟩ else none

/-- A sector number. -/
def readSector (b : Byte) : Option SectorNo := if h : b.toNat < 16 then some ⟨b.toNat, h⟩ else none

/-- A flag: 0 clear or OFF, 1 set or ON (R203). -/
def readFlag (b : Byte) : Option Bool := if b = 0#8 then some false else if b = 1#8 then some true else none

/-- A home track (R1, R201). -/
def readHome (hi lo head : Byte) : Option HomeTrack :=
  if h : twoBytes hi lo < 600 ∧ head.toNat < 10 then some ⟨⟨twoBytes hi lo, h.1⟩, ⟨head.toNat, h.2⟩⟩ else none

/-- A first sector and count of READ or WRITE (R21). -/
def readRun (first count : Byte) : Option (SectorNo × Nat) :=
  match readSector first with
  | some x => if 1 ≤ count.toNat ∧ x.val + count.toNat ≤ 16 then some (x, count.toNat) else none
  | none => none

/-- One four-byte chain entry (R203); none where its code or an operand is out of range. -/
def readEntry (code b1 b2 b3 : Byte) : Option Entry :=
  match code.toNat with
  | 1 => (readHome b1 b2 b3).map .seek
  | 2 => (readRun b1 b2).map fun r => .read r.1 r.2
  | 3 => (readRun b1 b2).map fun r => .write r.1 r.2
  | 4 => (readFlag b1).map .reserve
  | 5 => some .release
  | 6 => some .sense
  | 7 => some .flush
  | _ => none

/-- The entries of a chain split by their codes; none where their bytes run past the end of the frame or bytes are left
over. A MANAGE entry, like an entry of unknown code, reads as none in its place (R203; log 16). -/
def splitEntries : Nat → List Byte → Option (List (Option Entry))
  | 0, [] => some []
  | 0, _ => none
  | n + 1, code :: b1 :: b2 :: b3 :: rest =>
    let extra := if code = 8#8 then twoBytes b2 b3 else 0
    if rest.length < extra then none
    else (splitEntries n (rest.drop extra)).map fun es => readEntry code b1 b2 b3 :: es
  | _ + 1, _ => none

/-- The lowest index of an entry that breaks check 2 of R23: out of range, READ, WRITE or FLUSH before the first SEEK,
or a WRITE that names a sector of an earlier WRITE of its step (R22, R23; log 16). -/
def badEntry : List (Option Entry) → Bool → List SectorNo → Nat → Option Nat
  | [], _, _, _ => none
  | e :: r, inStep, taken, i =>
    match e with
    | none => some i
    | some (.seek _) => badEntry r true [] (i + 1)
    | some (.read _ _) | some .flush => if inStep then badEntry r inStep taken (i + 1) else some i
    | some (.write f n) =>
      if inStep = false ∨ (sectorsFrom f n).any taken.contains then some i
      else badEntry r inStep (taken ++ sectorsFrom f n) (i + 1)
    | some (.reserve _) | some .release | some .sense => badEntry r inStep taken (i + 1)

/-- What check 2 of R23 finds: the entries, or the failing entry index, if one is given. -/
inductive Format where
  | good (entries : List Entry)
  | bad (entry : Option Nat)
  deriving DecidableEq, Repr

/-- Check 2 of R23 over the count and the entry bytes. -/
def readChain (count : Byte) (body : List Byte) : Format :=
  if 1 ≤ count.toNat ∧ count.toNat ≤ 8 then
    match splitEntries count.toNat body with
    | none => .bad none
    | some es =>
      match badEntry es false [] 0 with
      | some i => .bad (some i)
      | none => .good (es.filterMap id)
  else .bad none

/-- An entry is a SEEK. -/
def Entry.isSeek : Entry → Bool
  | .seek _ => true
  | _ => false

/-- The entries of a step after its SEEK, up to the next SEEK (R22). -/
def stepEntries (es : List Entry) (cur : Nat) : List Entry := (es.drop (cur + 1)).takeWhile fun e => !e.isSeek

/-- A WRITE's sectors, in rising order; no sectors for another entry. -/
def Entry.writes : Entry → List SectorNo
  | .write f n => sectorsFrom f n
  | _ => []

/-- The expected sectors of a step's staging: those of its WRITE entries in entry order (R30). -/
def stagingOf (es : List Entry) (cur : Nat) : List SectorNo := (stepEntries es cur).flatMap Entry.writes

/-- The entry asks for a buffer (R29). -/
def Entry.usesBuffer : Entry → Bool
  | .read .. | .write .. => true
  | _ => false

/-- A mask of drive conditions: bit 0 WRITE-FAULT to bit 3 POWER-CHECK (R203). Bits 4 to 7 are not assigned and are
disregarded (R201). -/
def readCauses (b : Byte) : CauseSet := ⟨b.getLsbD 0, b.getLsbD 1, b.getLsbD 2, b.getLsbD 3⟩

/-- A number within a range. -/
def readWithin (lo hi : Nat) (b : Byte) : Option Nat := if lo ≤ b.toNat ∧ b.toNat ≤ hi then some b.toNat else none

/-- A Safe State (R203). -/
def readSafe (b : Byte) : Option SafeState :=
  match b.toNat with
  | 0 => some .writeInhibit
  | 1 => some .retract
  | 2 => some .isolate
  | _ => none

/-- A Drive Policy record: the twelve fields of R17 in table order (R203). -/
def readPolicy : List Byte → Option Policy
  | [f1, f2, f3, f4, f5, f6, f7, f8, f9, f10, f11, f12] => do
    let reversalSettle ← readWithin 0 15 f1
    let passLimit ← readWithin 0 15 f2
    let missLimit ← readWithin 1 15 f3
    let retryLimit ← readWithin 0 7 f4
    let deferred ← readFlag f5
    let retain ← readFlag f6
    let autoSpare ← readFlag f7
    let spareThreshold ← readWithin 1 15 f8
    let spareLowMark ← readWithin 0 39 f9
    let safeState ← readSafe f11
    let autoRelease ← readFlag f12
    some ⟨reversalSettle, passLimit, missLimit, retryLimit, if deferred then .deferred else .through, retain,
      autoSpare, spareThreshold, spareLowMark, readCauses f10, safeState, autoRelease⟩
  | _ => none

/-- A Notice Priority Table: no level above 15, and none of 0 for ENDING or RECONNECT (R52). -/
def readLevels (bs : List Byte) : Option (Vector (Fin 16) 13) :=
  if h : bs.length = 13 then
    let xs := bs.map BitVec.toNat
    if (xs.all fun n => decide (n < 16)) ∧ xs[0]? ≠ some 0 ∧ xs[1]? ≠ some 0 then
      some ⟨(bs.map fun b => Fin.ofNat 16 b.toNat).toArray, by simp [h]⟩
    else none
  else none

/-- A row of the Path Table: 0 ALLOWED, 1 BARRED (R66, R203). -/
def readRow (bs : List Byte) : Option (Vector Bool 8) :=
  if h : bs.length = 8 then
    if bs.all fun b => (readFlag b).isSome then some ⟨(bs.map fun b => b == 0#8).toArray, by simp [h]⟩ else none
  else none

/-- A map item as it stands in the frame (R203), before the item check of R146. -/
inductive RawItem where
  | entry (hi lo head spare : Byte) (mask : Nat)
  | retired (spare : Byte)
  deriving DecidableEq, Repr

/-- `n` map items of seven bytes; none for a kind that is not assigned or a wrong length (R203). -/
def readItems : Nat → List Byte → Option (List RawItem)
  | 0, [] => some []
  | n + 1, kind :: hi :: lo :: head :: spare :: m1 :: m0 :: rest =>
    if kind = 0#8 then (readItems n rest).map fun r => .entry hi lo head spare (twoBytes m1 m0) :: r
    else if kind = 1#8 then (readItems n rest).map fun r => .retired spare :: r
    else none
  | _, _ => none

/-- The sectors of a sector mask (R201). -/
def ofMask (m : Nat) : List SectorNo := allSectors.filter fun x => m.testBit x.val

end Sys2Proof.Machine
end

