-- ==== Sys2Proof/Machine/Chains.lean ====
section
/-! DEFINITION. Chain Control (chapter 2): the steps of a chain, the entry walk, delivery, endings, and the contexts
that are withdrawn or freed. -/

namespace Sys2Proof.Machine

/-- The index of the SEEK entry of a context's step (R12, R27). -/
def seekIndex (x : Context) : Nat :=
  (((List.range (x.cur + 1)).filter fun i => match x.entries[i]? with | some e => e.isSeek | none => false).getLast?).getD 0

/-- The link that is connected to a context (R53). -/
def connectedLink (s : State) (c : CtxNo) : Option LinkNo :=
  allLinks.find? fun l => match (s.port l).state with | .connected k _ => k == c | _ => false

/-- The context is withdrawn from the Request Queue, the Buffer Store's waits, its RECONNECT item or its connection
(R28, R37). `x` is the context as it stood. -/
def withdrawFrom (c : CtxNo) (x : Context) (s : State) : State :=
  let t := unlist (fun w => w.who == .context c) s
  match x.state with
  | .queued => leaveQueue x.drive (.step c) t
  | .staging | .waitLink =>
    match x.link with
    | some l => withdraw l (.reconnect x.drive c .toHost 0) t
    | none => t
  | .connected =>
    match connectedLink t c with
    | some l => goIdle l t
    | none => t
  | _ => t

/-- The context is in ENDING, or on its way there or to FREE within the command in hand (R37, R42). -/
def Context.leaves (x : Context) : Bool := x.state == .ending || x.state == .waitStore .leaving

/-- The first three steps of a chain's ending (R37): the condition is recorded, the context withdrawn, and the arm given
its course. The chain still counts in the drive load. -/
def beginEnding (c : CtxNo) (cond : Condition) (entry : Option Nat) (sectors : List SectorNo) (arm : State → State)
    (s : State) : State :=
  match s.ctx c with
  | some x =>
    let e : Ending := ⟨cond, if cond = .complete then none else some (entry.getD x.cur), sectors⟩
    let t := withdrawFrom c x (s.modCtx c fun y => { y with state := .waitStore .leaving, ending := some e })
    if x.state = .active then arm t else t
  | none => s

/-- A chain ends (R37), in the rule's order: then its pin is released, and it is placed in ENDING with its item
raised. A chain ends once. -/
def endChain (c : CtxNo) (cond : Condition) (entry : Option Nat) (sectors : List SectorNo) (arm : State → State)
    (s : State) : State :=
  match s.ctx c with
  | some x =>
    if x.leaves then s else (beginEnding c cond entry sectors arm s).later [.unpin c, .raiseEnding c]
  | none => s

/-- The context is placed in ENDING and its item raised on its link (step 5 of R37). -/
def raiseEnding (c : CtxNo) (s : State) : State :=
  match s.ctx c with
  | some x =>
    let t := s.modCtx c fun y => { y with state := .ending }
    match x.link with
    | some l => raise l (.ending x.drive c) t
    | none => t
  | none => s

/-- A chain ends at its current entry and the arm, if held, is released (R37). -/
def endAtEntry (c : CtxNo) (cond : Condition) (sectors : List SectorNo) (s : State) : State :=
  match s.ctx c with
  | some x => endChain c cond none sectors (armIdle x.drive) s
  | none => s

/-- The arm's course when a chain is stopped while ACTIVE (R40): a settle or seek runs on detached, an orientation is
given up. -/
def detachArm (d : DriveNo) (s : State) : State :=
  match (s.drive d).arm with
  | .settling | .seeking =>
    s.modSched d fun q => { q with selection := q.selection.map fun k => { k with detached := true } }
  | .orienting => enterIdle d s
  | _ => s

/-- A context is withdrawn to become FREE without an ending (R42). Until then it counts in the drive load, unless it was
in ENDING. -/
def withdrawQuietly (c : CtxNo) (s : State) : State :=
  match s.ctx c with
  | some x =>
    let t := withdrawFrom c x (s.modCtx c fun y =>
      { y with state := if x.state = .ending then .ending else .waitStore .leaving, link := none })
    if x.state = .active then detachArm x.drive t else t
  | none => s

/-- A context is withdrawn, gives up its pin and becomes FREE without an ending (R42). -/
def freeWithdrawn (c : CtxNo) (s : State) : State := (withdrawQuietly c s).later [.unpin c, .freeContext c]

/-- A context whose stop request is DISCARD, or that ends without an ending, becomes FREE (R26, R27). -/
def freeContext (c : CtxNo) (s : State) : State := if (s.ctx c).isSome then freeCtx c s else s

/-- A context that held the arm gives it up to go on without it (R32). -/
def giveUpArm (c : CtxNo) (x : Context) (s : State) : State :=
  if x.state = .active then armIdle x.drive (s.modCtx c fun y => { y with state := .waitStore .goingOn }) else s

/-- The context needs the arm and joins the Request Queue (R33). -/
def needArm (c : CtxNo) (x : Context) (s : State) : State :=
  match x.home with
  | some h => joinQueue x.drive (.step c) h (s.modCtx c fun y => { y with state := .queued })
  | none => s

/-- The current entry completes and the walk goes on (R32). -/
def advance (c : CtxNo) (s : State) : State := (s.modCtx c fun y => { y with cur := y.cur + 1 }).later [.walk c]

/-- The sectors of a READ that neither the buffer nor fill supplies (R32, R107, R150). -/
def wanted (s : State) (x : Context) (first : SectorNo) (count : Nat) : List SectorNo :=
  match x.home, x.buffer with
  | some h, some b => (sectorsFrom first count).filter fun y => supply s x.drive h b y == .drive
  | _, _ => []

/-- A READ entry is reached (R32). -/
def walkRead (c : CtxNo) (x : Context) (first : SectorNo) (count : Nat) (s : State) : State :=
  let need := wanted s x first count
  match need, x.home, x.buffer with
  | _ :: _, some h, some b =>
    if x.state = .active then
      orientTo x.drive ⟨.step c, .read, b, h, (firstLast need).1, (firstLast need).2, need, 0, 0⟩ s
    else needArm c x s
  | _, _, _ => (giveUpArm c x s).later [.deliver c]

/-- A WRITE entry is reached (R32). -/
def walkWrite (c : CtxNo) (x : Context) (first : SectorNo) (count : Nat) (s : State) : State :=
  if (s.policy x.drive).writeMode = .deferred then advance c s
  else
    match x.home, x.buffer with
    | some h, some b =>
      if x.state = .active then
        let run := firstLast (sectorsFrom first count)
        orientTo x.drive ⟨.step c, .write, b, h, run.1, run.2, [], 0, 0⟩ s
      else needArm c x s
    | _, _ => s

/-- The entry walk at the current entry (R32). -/
def walk (c : CtxNo) (s : State) : State :=
  match s.ctx c with
  | none => s
  | some x =>
    if x.state = .active ∨ x.state = .waitStore .goingOn then
      match x.entries[x.cur]? with
      | none | some (.seek _) => (giveUpArm c x s).later [.endStep c]
      | some .sense => advance c (s.modCtx c fun y => { y with sense := some (senseOf s x.drive) })
      | some (.reserve wait) =>
        match x.link with
        | none => s
        | some l =>
          match reserveResult s l x.drive wait with
          | none => advance c (reserve l x.drive wait s)
          | some cond => endAtEntry c cond [] (reserve l x.drive wait s)
      | some .release =>
        match x.link with
        | none => s
        | some l =>
          match releaseResult s l x.drive with
          | none => advance c (release l x.drive s)
          | some cond => endAtEntry c cond [] s
      | some .flush => (giveUpArm c x s).later [.flushWait c]
      | some (.read first count) => walkRead c x first count s
      | some (.write first count) => walkWrite c x first count s
    else s

/-- A step starts at its SEEK entry (R29). -/
def startStep (c : CtxNo) (s : State) : State :=
  match s.ctx c with
  | none => s
  | some x =>
    match x.entries[x.cur]? with
    | some (.seek h) =>
      let expected := stagingOf x.entries x.cur
      let t := fun st => s.modCtx c fun y => { y with home := some h, expected := expected, state := st }
      if (stepEntries x.entries x.cur).any Entry.usesBuffer then
        request ⟨.context c, x.drive, h⟩ (t (if expected.isEmpty then .waitStore .bufferList else .staging))
      else advance c (t (.waitStore .goingOn))
    | _ => s

/-- A context has been assigned its step's buffer (R29). -/
def assigned (c : CtxNo) (s : State) : State :=
  match s.ctx c with
  | none => s
  | some x =>
    match x.state, x.buffer with
    | .waitStore .goingOn, some b =>
      if x.expected.isEmpty then advance c s
      else if (s.buffer b).state = .destaging ∨ (s.buffer b).relocPin then
        s.modCtx c fun y => { y with state := .waitStore .bufferFree }
      else stage c s
    | _, _ => s

/-- A step ends: its pin is released, and the next step or the end of the chain follows (R36). -/
def endStep (c : CtxNo) (s : State) : State := (unpin c s).later [.nextStep c]

/-- The next step starts, or the chain ends COMPLETE (R36). -/
def nextStep (c : CtxNo) (s : State) : State :=
  match s.ctx c with
  | none => s
  | some x => if x.cur < x.entries.length then startStep c s else endAtEntry c .complete [] s

/-- The reading of a READ entry is done: the arm is released and delivery begins (R109, R112). -/
def readDone (c : CtxNo) (s : State) : State :=
  match s.ctx c with
  | none => s
  | some x => if x.state = .active then (giveUpArm c x s).later [.deliver c] else s

/-- Delivery is set out (R34, R150). -/
def deliver (c : CtxNo) (s : State) : State :=
  match s.ctx c with
  | none => s
  | some x =>
    match x.state, x.entries[x.cur]?, x.home, x.buffer with
    | .waitStore .goingOn, some (.read first count), some h, some b =>
      let sectors := sectorsFrom first count
      let fill := sectors.filter fun y => supply s x.drive h b y == .fill
      let out := (sectors.filter fun y => !(x.failing.contains y)).map fun y => (y, fill.contains y)
      let cond :=
        if !x.failing.isEmpty then some Condition.dataCheck else if !fill.isEmpty then some .lostSector else none
      let bad := if x.failing.isEmpty then fill else x.failing
      if out.isEmpty then endAtEntry c (cond.getD .dataCheck) bad s
      else
        let t := s.modCtx c fun y =>
          { y with state := .waitLink, failing := bad, deliver := out, deliverCond := cond }
        match x.link with
        | some l => raise l (.reconnect x.drive c .toHost out.length) t
        | none => t
    | _, _, _, _ => s

/-- The flush wait begins (R35, R133). -/
def flushWait (c : CtxNo) (s : State) : State :=
  match s.ctx c with
  | none => s
  | some x =>
    if x.state = .waitStore .goingOn then
      flushTest x.drive (flushItems x.drive (s.modCtx c fun y => { y with state := .waitStore .flush }))
    else s

end Sys2Proof.Machine
end

