-- ==== Sys2Proof/Machine/Passes.lean ====
section
/-! DEFINITION. The Data Path Arbiter and transfer passes (chapter 6): claims, misses and bookings, the sectors of a
pass, its results, its stops and its end. -/

namespace Sys2Proof.Machine

/-- Sectors of a pass's run (R108). -/
def Pass.length (p : Pass) : Nat := p.last.val + 1 - p.first.val

/-- The k-th sector of a pass's run. -/
def Pass.sector (p : Pass) (k : Nat) : SectorNo := Fin.ofNat 16 (p.first.val + k)

/-- The pass that a drive is running, if it is TRANSFERRING (R101, R108). -/
def passOf (s : State) (d : DriveNo) : Option Pass :=
  if (s.drive d).arm = .transferring then s.path.grant.filter fun p => p.drive == d else none

/-- The running pass is changed. -/
def modPass (f : Pass → Pass) (s : State) : State := { s with path := { s.path with grant := s.path.grant.map f } }

/-- The pass's buffer still holds its track. It always does, but after a Controller Reset (log 24). -/
def Pass.holds (p : Pass) (s : State) : Bool := (s.buffer p.buffer).assigned == some (p.drive, p.home)

/-- A pass that a Controller Reset has dropped ends or is cut: its grant ends, and a CLEAN buffer of a read pass is
emptied (R116, R141). -/
def clearDropped (d : DriveNo) (p : Pass) (s : State) : State :=
  let t := clearGrant d s
  if p.dir = .read ∧ p.holds t ∧ available t p.buffer then serve (emptyOf d p.buffer t) else t

/-- A pass that a Controller Reset has dropped ends, and the arm enters IDLE (R16, R116). -/
def endDropped (d : DriveNo) (p : Pass) (s : State) : State := armIdle d (clearDropped d p s)

/-- The context of a chain under stop request DISCARD becomes FREE at the end of its pass (R42). -/
def discardTasks (d : DriveNo) (c : CtxNo) : List Task := [.unpin c, .armIdle d, .freeContext c]

/-- The stop request of a context (R27). -/
def stopOf (s : State) (c : CtxNo) : StopRequest := match s.ctx c with | some x => x.stop | none => .none

/-- A STEP's pass has stopped its chain with a condition at a sector; a chain under DISCARD is freed instead
(R113, R114; log 23). -/
def stopStep (d : DriveNo) (c : CtxNo) (cond : Condition) (x : SectorNo) (before : List Task) (s : State) : State :=
  if stopOf s c = .discard then
    (s.modCtx c fun y => { y with state := .waitStore .goingOn }).later (before ++ discardTasks d c)
  else s.later (before ++ [.endChain c cond [x]])

/-- A write pass stops at a sector by a WRITE-FAULT that is not a fence source, or a sector closed without a result
(R108, R114). -/
def stopFault (d : DriveNo) (p : Pass) (x : SectorNo) (s : State) : State :=
  if p.dropped then endDropped d p s
  else
    let t := clearGrant d s
    match p.work with
    | .step c => stopStep d c .writeCheck x [.report d p.home] t
    | .destage b =>
      (t.modBuffer b fun r => { r with destage := .none, runs := [] }).later
        [.report d p.home, .destageStopped b, .armIdle d]
    | .relocation _ => spareFails d t

/-- The requester the Error Capture Record names for a pass (R135). -/
def captureFor (s : State) (w : Work) (dir : Transfer) : CaptureBy :=
  match w with
  | .step c => match s.ctx c with | some x => x.capturedBy dir | none => .write none 0#8
  | .destage _ => .destage
  | .relocation _ => .relocation

/-- Fill data: 512 bytes of value 0 (R150). -/
def fillData : List Byte := List.replicate Config.sectorBytes 0#8

/-- A sector of a STEP or DESTAGE pass is withheld from the drive (R113): a STEP's pass stops at it. -/
def withhold (d : DriveNo) (p : Pass) (x : SectorNo) (s : State) : State :=
  match p.work with
  | .step c =>
    if p.dropped then endDropped d p s else stopStep d c .bufferCheck x [] (clearGrant d s)
  | _ => modPass (fun q => { q with withheld := q.withheld ++ [x] }) s

/-- The next sector of a pass arrives under the heads: in a write pass its data leaves the buffer (R113, R158). -/
def beginSector (d : DriveNo) (p : Pass) (s : State) : State :=
  let x := p.sector p.begun
  let t := modPass (fun q => { q with begun := p.begun + 1 }) s
  if p.dir = .read ∨ p.length ≤ p.begun then t
  else
    let cell := if p.holds s then (s.buffer p.buffer).cell x else none
    match p.work with
    | .relocation _ =>
      let pendingLost := match (s.track d).reloc with | some r => r.pending.contains x | none => true
      let lose := modReloc d fun r => { r with pending := rising (r.pending ++ [x]) }
      match cell with
      | none => lose (t.order d (.writeData x fillData))
      | some k =>
        if pendingLost then t.order d (.writeData x fillData)
        else if k.bad then lose (parityFailure p.buffer x true .relocation (t.order d (.writeData x fillData)))
        else t.order d (.writeData x k.data)
    | w =>
      match cell with
      | none => withhold d p x t
      | some k =>
        if k.bad then withhold d p x (parityFailure p.buffer x true (captureFor s w .write) t)
        else t.order d (.writeData x k.data)

/-- A claim is granted and its pass begins (R103, R108). A WRITE-FAULT already present stops a write pass at its first
sector (R114; log 26). -/
def grantPass (d : DriveNo) (o : Orient) (s : State) : State :=
  let head := match (s.sched d).selection with | some k => k.phys.head | none => 0
  let p : Pass := ⟨d, o.work, o.dir, o.buffer, o.home, o.first, o.last, 0, 0, 0, [], [], [], false⟩
  let t := ({ cancelBooking d s with path := { (cancelBooking d s).path with grant := some p } }).setArm d .transferring
  match o.dir with
  | .read => beginSector d p (t.order d (.readPass head o.first o.last))
  | .write =>
    let u := t.order d (.writePass head o.first o.last)
    if (s.fence d).causes.writeFault then stopFault d p o.first u else beginSector d p u

/-- A claim that is not granted is a miss, which may book the path (R103, R104). -/
def miss (d : DriveNo) (o : Orient) (s : State) : State :=
  let n := upTo Config.countMax o.miss
  let t := s.setOrient d (some { o with miss := n })
  if (s.policy d).missLimit ≤ n ∧ s.path.booking = none then
    { t with path := { t.path with booking := some ⟨d, o.work⟩ } }
  else t

/-- The target sector arrives: a claim (R103). -/
def claim (d : DriveNo) (x : SectorNo) (s : State) : State :=
  match s.orients.get d with
  | some o =>
    if (s.drive d).arm = .orienting ∧ o.first = x then
      match s.path.grant, s.path.booking with
      | none, none => grantPass d o s
      | none, some k => if k.drive = d then grantPass d o s else miss d o s
      | some _, _ => miss d o s
    else s
  | none => s

/-- The needed sectors of a drive's request that the buffer does not now hold valid and dirty (R111). -/
def stillNeeded (s : State) (d : DriveNo) : List SectorNo :=
  match s.orients.get d with
  | some o => o.needed.filter fun x => !(s.buffer o.buffer).holdsDirty x
  | none => []

/-- A retry pass over the sectors still needed (R111). -/
def retryPass (d : DriveNo) (o : Orient) (left : List SectorNo) (s : State) : State :=
  orientTo d { o with first := (firstLast left).1, last := (firstLast left).2, needed := left, retry := o.retry + 1 } s

/-- A pass ends with its last sector (R109, R111, R112). -/
def finishPass (d : DriveNo) (p : Pass) (s : State) : State :=
  let t := clearGrant d s
  let left := stillNeeded s d
  let retry := match s.orients.get d with | some o => decide (o.retry < (s.policy d).retryLimit) | none => false
  match p.work with
  | .step c =>
    match stopOf s c with
    | .halt => t.later [.endChain c .halted []]
    | .discard => (t.modCtx c fun x => { x with state := .waitStore .goingOn }).later (discardTasks d c)
    | .none =>
      match p.dir with
      | .write => advance c t
      | .read =>
        match left, s.orients.get d with
        | _ :: _, some o =>
          if retry then retryPass d o left t
          else (t.modCtx c fun x => { x with failing := left }).later [.report d p.home, .readDone c]
        | _, _ => t.later [.readDone c]
  | .destage b => destageNext d b p.home (some p.last) t
  | .relocation phase =>
    match phase with
    | .readOld =>
      match left, s.orients.get d with
      | _ :: _, some o => if retry then retryPass d o left t else readOldEnds d left t
      | _, _ => readOldEnds d [] t
    | .writeNew => writeNewEnds d t
    | _ => if p.noted.isEmpty then commit d t else spareFails d t

/-- A sector leaves the needed set (R110). -/
def satisfied (d : DriveNo) (x : SectorNo) (s : State) : State :=
  s.setOrient d ((s.orients.get d).map fun o => { o with needed := o.needed.filter fun y => y != x })

/-- The data of a read result, as the K740 takes it: none for UNCORRECTABLE, and none while OFF-TRACK is present
(R110, R115). -/
def readData (s : State) (d : DriveNo) (r : PassResult) : Option (List Byte) :=
  if (s.fence d).causes.offTrack then none
  else match r with
    | .good data | .corrected data => some data
    | _ => none

/-- A read result is taken for a sector (R110, R159). -/
def takeRead (d : DriveNo) (p : Pass) (x : SectorNo) (data : Option (List Byte)) (s : State) : State :=
  let t :=
    if p.work = .relocation .verify ∧ data = none then modPass (fun q => { q with noted := q.noted ++ [x] }) s else s
  let needed : Bool := match s.orients.get d with | some o => o.needed.contains x | none => false
  if needed ∧ p.holds s then
    if (s.buffer p.buffer).holdsDirty x then satisfied d x t
    else
      match data with
      | some bytes => satisfied d x (storeCell p.buffer x bytes false t)
      | none => t
  else t

/-- A WRITTEN result is taken for a sector (R113, R151, R158). -/
def takeWritten (d : DriveNo) (p : Pass) (x : SectorNo) (s : State) : State :=
  match p.work with
  | .relocation _ => s
  | _ =>
    if p.withheld.contains x then s
    else
      let t := if p.stored.contains x ∨ p.holds s = false then s else cleanSector p.buffer x s
      written d p.home x t

/-- The result kind is that of the pass's direction (log 30). -/
def Pass.fits (p : Pass) (r : PassResult) : Bool :=
  match p.dir, r with
  | .write, .written => true
  | .write, _ => false
  | .read, .written => false
  | .read, _ => true

/-- After a sector's result has been taken: the pass ends with its last sector, or at the sector where a Controller
Reset ends it (R108, R116). -/
def afterResult (d : DriveNo) (s : State) : State :=
  match passOf s d with
  | some p =>
    let q := { p with taken := p.taken + 1 }
    let t := modPass (fun _ => q) s
    if q.dropped then endDropped d q t else if q.length ≤ q.taken then finishPass d q t else t
  | none => s

/-- A result taken for the next sector of the run whose data has already left (R108, R110, R113). -/
def takeNext (d : DriveNo) (r : PassResult) (s : State) : State :=
  match passOf s d with
  | some p =>
    let x := p.sector p.taken
    match p.dir with
    | .read => afterResult d (takeRead d p x (readData s d r) s)
    | .write => afterResult d (takeWritten d p x s)
  | none => s

/-- SECTOR-RESULT (R108): it belongs to the next sector of the run whose result has not been taken. A result for a
sector already closed, or not of the pass's kind, is disregarded (log 9, log 30). A pass that a Controller Reset has
dropped between a sector's result and its closing event ends at the next result, which is disregarded (log 47). -/
def sectorResult (d : DriveNo) (sec : SectorNo) (r : PassResult) (s : State) : State :=
  match passOf s d with
  | some p =>
    if sec.val < p.first.val + p.closed ∨ p.fits r = false then s
    else if p.dropped ∧ p.closed < p.taken then endDropped d p s
    else if p.begun ≤ p.taken then takeNext d r (beginSector d p s)
    else takeNext d r s
  | none => s

/-- A SECTOR or INDEX event closes one sector of the run (R108): without its result taken, a read sector counts as
UNCORRECTABLE and a write pass stops; then the next sector arrives. An INDEX that finds another sector than 15 next to
be closed closes that one (log 45). A pass that a Controller Reset has dropped after the sector's result was taken ends
here (log 47). -/
def closeSector (d : DriveNo) (s : State) : State :=
  match passOf s d with
  | none => s
  | some p =>
    let x := p.sector p.closed
    let q := { p with closed := p.closed + 1 }
    if p.closed < p.taken then
      let t := modPass (fun _ => q) s
      if p.dropped then endDropped d q t else if p.begun ≤ q.closed then beginSector d q t else t
    else
      match p.dir with
      | .write =>
        if p.withheld.contains x then
          let u := { q with taken := q.closed }
          let t := modPass (fun _ => u) s
          if p.dropped then endDropped d u t
          else if u.length ≤ u.closed then finishPass d u t
          else if u.begun ≤ u.closed then beginSector d u t else t
        else stopFault d p x s
      | .read =>
        let t := modPass (fun r => { r with closed := q.closed, taken := q.closed, begun := max r.begun (q.closed + 1) })
          (takeRead d p x none s)
        match passOf t d with
        | none => t
        | some u => if u.dropped then endDropped d u t else if u.length ≤ u.closed then finishPass d u t else t

/-- The event that is about to be taken ends the pass in progress (R108, R109; log 8). -/
def endsPass (s : State) (d : DriveNo) (e : PassCloser) : Bool :=
  match passOf s d with
  | none => false
  | some p =>
    match e with
    | .result sec r =>
      decide (p.first.val + p.closed ≤ sec.val) && p.fits r && (p.dropped || decide (p.length ≤ p.taken + 1))
    | .sectorEvent | .indexEvent =>
      p.dropped || decide (p.length ≤ p.closed + 1) ||
        (p.dir == .write && decide (p.taken ≤ p.closed) && !(p.withheld.contains (p.sector p.closed)))

end Sys2Proof.Machine
end

