-- ==== Sys2Proof/Machine/Fences.lean ====
section
/-! DEFINITION. Fence Control (chapter 10): the fence test, the act of fencing, clearing, release and purge. -/

namespace Sys2Proof.Machine

/-- SAFE-STATE is sent with the commanded safe state (R181). -/
def sendSafeState (d : DriveNo) (s : State) : State :=
  match (s.fence d).commanded with
  | some k => (s.modFence d fun f => { f with safeSent := true }).order d (.safeState k)
  | none => s

/-- The pass that a drive is running is cut, and its grant with it (R116). -/
def cutPass (d : DriveNo) (s : State) : State :=
  match passOf s d with
  | some p => if p.dropped then clearDropped d p s else clearGrant d s
  | none => clearGrant d s

/-- The arm enters FENCED: what it served is removed, its grant and booking cleared, and SAFE-STATE is sent
(R116, R182, R183). -/
def enterFenced (d : DriveNo) (s : State) : State :=
  sendSafeState d ((dropSelection d (cutPass d s)).setArm d .fenced)

/-- The arm's treatment at the act of fencing (R182). -/
def fenceArm (d : DriveNo) (s : State) : State :=
  match (s.drive d).arm with
  | .notReady | .fenced => s
  | .recalibrating => sendSafeState d s
  | .idle | .settling | .seeking | .orienting | .transferring => enterFenced d s

/-- The work that the arm was serving at the act of fencing (R183). A relocation is abandoned with R184. -/
def fenceWork (d : DriveNo) (k : Option Selection) (s : State) : State :=
  match k with
  | none => s
  | some k =>
    if k.detached then s
    else
      match k.work with
      | .step c =>
        if stopOf s c = .discard then freeWithdrawn c s else endChain c .driveFenced none [] id s
      | .destage b => destageCut d k b s
      | .relocation _ => s

/-- The act of fencing (R182 to R185). -/
def actOfFencing (d : DriveNo) (s : State) : State :=
  let sel := (s.sched d).selection
  let t := s.modFence d fun f =>
    { f with flag := true, releasePending := false, commanded := some (s.policy d).safeState, safeSent := false }
  (fenceWork d sel (raiseDrive d (.driveFenced d) (fenceArm d t))).later [.abandon d]

/-- The fence test (R179). -/
def fenceTest (d : DriveNo) (s : State) : State :=
  let f := s.fence d
  if f.flag = false ∧ (selectedCause s d ∨ f.forced) then
    if f.releasePending then s.modFence d fun f => { f with flag := true, releasePending := false }
    else actOfFencing d s
  else s

/-- The fence flag is cleared and the release awaited (R187, R188). -/
def clearFlag (d : DriveNo) (s : State) : State :=
  s.modFence d fun f => { f with flag := false, releasePending := true }

/-- The Auto-Release test (R187). -/
def autoReleaseTest (d : DriveNo) (s : State) : State :=
  let f := s.fence d
  if f.flag ∧ (s.policy d).autoRelease ∧ selectedCause s d = false ∧ f.forced = false then clearFlag d s else s

/-- The record's part of a release: release-pending and the commanded safe state are cleared, and SAFE-STATE END is
sent where SAFE-STATE was (steps 1 and 2 of R189). -/
def releaseRecord (d : DriveNo) (s : State) : State :=
  let t := s.modFence d fun f => { f with releasePending := false, commanded := none, safeSent := false }
  if (s.fence d).safeSent then t.order d .safeStateEnd else t

/-- The items and the reclaim check of a release (steps 5 to 7 of R189). -/
def releaseItems (d : DriveNo) (s : State) : State :=
  reclaimCheck (raiseDrive d (.fenceReleased d) (endLevel (.driveFenced d) s))

/-- The release of a fence at an INDEX that finds the arm FENCED (R189). -/
def releaseFence (d : DriveNo) (s : State) : State :=
  let safe := (s.fence d).commanded
  let t := releaseRecord d s
  let u :=
    match safe, (s.drive d).cyl with
    | some .retract, _ | some .isolate, _ => startRecal d .release t
    | _, some _ => t.setArm d .idle
    | _, none => startRecal d .positionLost t
  (releaseItems d (applyPolicy joinTogether d u)).later [.select d]

/-- DRIVE-READY for a recalibration with reason COMING-READY (R8). -/
def raiseReady (d : DriveNo) (why : Option RecalReason) (s : State) : State :=
  if why = some .comingReady then raiseDrive d (.driveReady d) s else s

/-- The arm, recalibrated, enters IDLE: DRIVE-READY where it is due, then the Pending Policy (R8, R18, R49). -/
def idleReady (d : DriveNo) (why : Option RecalReason) (s : State) : State :=
  applyPolicy joinTogether d (raiseReady d why (s.setArm d .idle))

/-- The first INDEX after a good RECAL-DONE (R8): the arm enters IDLE, or FENCED with the fence flag set; a fence that
is releasing is released there (R189). DRIVE-READY joins the sets before the items of a policy that becomes current
(R49; log 44). -/
def recalibrated (d : DriveNo) (s : State) : State :=
  let why := (s.drive d).recalReason
  let t := s.modDrive d fun r => { r with recalReason := none }
  if (s.fence d).flag then raiseReady d why (enterFenced d t)
  else if (s.fence d).releasePending then
    (releaseItems d (idleReady d why (releaseRecord d t))).later [.select d]
  else (idleReady d why (dropSelection d t)).later [.select d]

/-- FENCE-PURGE ends every held chain of the drive, in order of acceptance: all are withdrawn first, and each then gives
up its pin and raises its ENDING in turn (R191; log 19). -/
def purge (d : DriveNo) (s : State) : State :=
  each (ctxsWhere s fun x => x.drive == d && (x.state == .queued || x.state == .waitStore .flush))
    (fun c => endChain c .driveFenced none [] id) s

end Sys2Proof.Machine
end

