-- ==== Sys2Proof/Machine/Tasks.lean ====
section
/-! DEFINITION. The loss of a drive and its pack (R13, R14), and the internal work of a command carried to its end, in
the order in which the rules hand it on (log 3). -/

namespace Sys2Proof.Machine

/-- The effects of NOT-READY on the Drive Record, the path, the Buffer Wait List, which the drive's waiters leave
unserved, and the drive's chains (R13, R123). The endings join the sets first, then whatever the chains' pins give, and
then the chain under DISCARD becomes FREE (R14, R49; log 19). -/
def dropDrive (d : DriveNo) (ready late : Bool) (s : State) : State :=
  let ended := ctxsWhere s fun x => x.drive == d && !x.leaves && x.stop != .discard
  let freed := ctxsWhere s fun x => x.drive == d && !x.leaves && x.stop == .discard
  let t := unlist (fun w => w.drive == d) (dropSelection d (clearGrant d (s.modDrive d fun r =>
    { r with ready := ready, lateAnswer := late, arm := .notReady, cyl := none, seekTarget := none,
             recalReason := none, indexSeen := false, position := none })))
  (each freed withdrawQuietly (each ended (fun c => beginEnding c .driveDropped none [] id) t)).later
    (ended.map .raiseEnding ++ (ended ++ freed).map .unpin ++ freed.map .freeContext ++
      [.abandon d, .losePack d ((s.drive d).arm == .fenced)])

/-- A buffer of a lost pack is emptied, with BUFFER-DATA-LOST for its dirty sectors (R14). -/
def loseBuffer (b : BufNo) (s : State) : State :=
  let xs := (s.buffer b).dirty
  emptyBuffer b (if xs.isEmpty then s else dataLost b xs s)

/-- The map goes ABSENT and the drive's suspect entries and buffers are lost; other drives' waiters gain the buffers
(R14). The reclaim check follows where a QUEUED destage went with its buffer or the arm has left FENCED (R124). -/
def losePack (d : DriveNo) (wasFenced : Bool) (s : State) : State :=
  let t := (endSparesLow d s).modTracks d fun _ => Tracks.powerOn
  let u := removeSuspects (fun e => e.drive == d) t
  let v := each (allBufs.filter fun b => (u.buffer b).ofDrive d) loseBuffer u
  let w := serve (v.modSched d fun q => { q with queue := [] })
  let withdrawn := allBufs.any fun b => (s.buffer b).ofDrive d && (s.buffer b).destage == .queued
  if wasFenced || withdrawn then reclaimCheck w else w

/-- One piece of internal work. -/
def runTask (t : Task) (s : State) : State :=
  match t with
  | .startStep c => startStep c s
  | .assigned c => assigned c s
  | .walk c => walk c s
  | .readDone c => readDone c s
  | .deliver c => deliver c s
  | .flushWait c => flushWait c s
  | .endStep c => endStep c s
  | .nextStep c => nextStep c s
  | .endChain c cond xs => endAtEntry c cond xs s
  | .unpin c => unpin c s
  | .raiseEnding c => raiseEnding c s
  | .freeContext c => freeContext c s
  | .giveItem b => giveItem b s
  | .select d => select d s
  | .armIdle d => armIdle d s
  | .destageEnded d b => destageEnded d b s
  | .destageStopped b => destageStopped b s
  | .holdBuffer d => holdBuffer d s
  | .relocOutcome d h o => relocOutcome d h o s
  | .recordFree d => recordFree d s
  | .createRelocation d h => createRelocation d h s
  | .abandon d => abandon d s
  | .report d h => report d h s
  | .threshold d h => threshold d h s
  | .fenceTest d => fenceTest d s
  | .purge d => purge d s
  | .loseReservations l => loseReservations l s
  | .losePack d wasFenced => losePack d wasFenced s
  | .choose l => choose l s

/-- Carries out pieces of work in order; what a piece hands on is done before the pieces after it. At most the given
number is done; what is left is kept (log 3). -/
def drain : Nat → List Task → State → State
  | 0, ts, s => { s with work := ts }
  | _ + 1, [], s => s
  | n + 1, t :: ts, s =>
    let u := runTask t s
    drain n (u.work ++ ts) { u with work := [] }

/-- The internal work of a state is carried out (log 3). -/
def settle (s : State) : State := drain Config.workBound s.work { s with work := [] }

/-- A command is taken: its effect, then the internal work that follows. Nothing is taken while the power-on clear line
is asserted (R200). -/
def take (s : State) (f : State → State) : Host.Outcome State Fault Refusal :=
  .next (if s.clearLine then s else settle (f (settle s)))

end Sys2Proof.Machine
end

