-- ==== Sys2Proof/Machine/DriveEvents.lean ====
section
/-! DEFINITION. The drive events and the drive's timeouts (chapters 1, 5, 6 and 10). -/

namespace Sys2Proof.Machine

/-- Coming ready (R7). -/
def comingReady (d : DriveNo) (s : State) : State :=
  startRecal d .comingReady (s.modDrive d fun r => { r with ready := true })

/-- READY (R7, R9, R15; log 11). -/
def execReady (d : DriveNo) (s : State) : Host.Outcome State Fault Refusal :=
  take s fun s =>
    if (s.drive d).arm = .notReady ∧ (s.drive d).lateAnswer = false then comingReady d s
    else s.modDrive d fun r => { r with ready := true }

/-- NOT_READY (R13, R14). -/
def execNotReady (d : DriveNo) (s : State) : Host.Outcome State Fault Refusal :=
  take s fun s =>
    if (s.drive d).arm = .notReady then s.modDrive d fun r => { r with ready := false, lateAnswer := false }
    else dropDrive d false false s

/-- A seek check (R12): the arm recalibrates, and the selected item is handled by its kind. A relocation stays in its
phase, which is carried out from its beginning (R164; log 43). -/
def seekCheck (d : DriveNo) (s : State) : State :=
  let sel := (s.sched d).selection
  let t := startRecal d .seekCheck (dropSelection d (s.modDrive d fun r => { r with seekTarget := none }))
  match sel with
  | none => t
  | some k =>
    if k.detached then t
    else
      match k.work with
      | .step c =>
        match s.ctx c with
        | some x => endChain c .seekCheck (some (seekIndex x)) [] id t
        | none => t
      | .destage b => destageCut d k b t
      | .relocation p => modReloc d (fun r => { r with afresh := p == .readOld }) t

/-- The outcome of a seek (R11, R12). -/
def seekOutcome (d : DriveNo) (good : Bool) (s : State) : State :=
  match (s.drive d).arm, (s.drive d).seekTarget with
  | .seeking, some cyl =>
    if good then arrived d (s.modDrive d fun r => { r with cyl := some cyl, seekTarget := none }) else seekCheck d s
  | .fenced, some cyl => s.modDrive d fun r => { r with cyl := if good then some cyl else none, seekTarget := none }
  | _, _ => s

/-- SEEK_DONE (R11, R12, R15). -/
def execSeekDone (d : DriveNo) (good : Bool) (s : State) : Host.Outcome State Fault Refusal :=
  take s (seekOutcome d good)

/-- SEEK_TIMEOUT (R12): it runs while a seek target is present. -/
def execSeekTimeout (d : DriveNo) (s : State) : Host.Outcome State Fault Refusal :=
  take s fun s => seekOutcome d false s

/-- RECALIBRATING with the cylinder UNKNOWN: the RECALIBRATE has not been answered (R8, R9). -/
def recalRunning (s : State) (d : DriveNo) : Bool := (s.drive d).arm == .recalibrating && (s.drive d).cyl == none

/-- RECAL_DONE (R8, R9, R15). -/
def execRecalDone (d : DriveNo) (good : Bool) (s : State) : Host.Outcome State Fault Refusal :=
  take s fun s =>
    if recalRunning s d then
      if good then s.modDrive d fun r => { r with cyl := some 0, indexSeen := false }
      else dropDrive d (s.drive d).ready (s.drive d).lateAnswer s
    else s.modDrive d fun r => { r with lateAnswer := false }

/-- RECALIBRATE_TIMEOUT (R9). -/
def execRecalibrateTimeout (d : DriveNo) (s : State) : Host.Outcome State Fault Refusal :=
  take s fun s => if recalRunning s d then dropDrive d (s.drive d).ready true s else s

/-- An INDEX as it is taken (R5, R8, R9, R108, R189). -/
def indexEvent (d : DriveNo) (s : State) : State :=
  let r := s.drive d
  let t := s.modDrive d fun k => { k with indexSeen := true, position := none }
  match r.arm with
  | .notReady => if r.ready ∧ r.lateAnswer = false then comingReady d s else s
  | .recalibrating => if r.cyl.isSome then recalibrated d t else t
  | .fenced =>
    if (s.fence d).releasePending ∧ (s.fence d).flag = false ∧ r.seekTarget = none then releaseFence d t else t
  | .transferring => closeSector d t
  | _ => t

/-- INDEX (R5). -/
def execIndex (d : DriveNo) (s : State) : Host.Outcome State Fault Refusal := take s (indexEvent d)

/-- The rotational position after a SECTOR event (R5): it advances, or the count of the revolution is lost. A position
kept beside a clear index-seen flag, 15 among them, stays as it is (log 41). -/
def advancePosition (r : Drive) : Drive :=
  if r.indexSeen then
    match r.position with
    | none => { r with position := some 0 }
    | some n => if h : n.val + 1 < 16 then { r with position := some ⟨n.val + 1, h⟩ }
      else { r with indexSeen := false, position := none }
  else r

/-- A SECTOR event as it is taken (R5, R92, R103, R108; log 12): by the arm state it meets, it counts towards a settle,
closes a sector of a pass, or may be a claim. -/
def sectorEvent (d : DriveNo) (s : State) : State :=
  let t := s.modDrive d advancePosition
  match (s.drive d).arm with
  | .notReady => s
  | .settling => settleTick d t
  | .transferring => closeSector d t
  | .orienting =>
    match (t.drive d).indexSeen, (t.drive d).position with
    | true, some x => claim d x t
    | _, _ => t
  | _ => t

/-- SECTOR (R5). -/
def execSector (d : DriveNo) (s : State) : Host.Outcome State Fault Refusal := take s (sectorEvent d)

/-- SECTOR_RESULT (R108, R110, R113). -/
def execSectorResult (d : DriveNo) (sec : SectorNo) (r : PassResult) (s : State) : Host.Outcome State Fault Refusal :=
  take s (sectorResult d sec r)

/-- A write pass in progress is stopped by a WRITE-FAULT that has not fenced the drive (R114). -/
def faultOnPass (d : DriveNo) (s : State) : State :=
  match passOf s d with
  | some p => if p.dir = .write then stopFault d p (p.sector p.taken) s else s
  | none => s

/-- CONDITION_RAISED (R114, R178, R179). -/
def execConditionRaised (d : DriveNo) (c : DriveCondition) (s : State) : Host.Outcome State Fault Refusal :=
  take s fun s =>
    if (s.fence d).causes.has c then s
    else
      let t := fenceTest d (s.modFence d fun f => { f with causes := f.causes.with c true })
      if c = .writeFault then faultOnPass d t else t

/-- CONDITION_CLEARED (R178, R187). -/
def execConditionCleared (d : DriveNo) (c : DriveCondition) (s : State) : Host.Outcome State Fault Refusal :=
  take s fun s =>
    if (s.fence d).causes.has c then
      autoReleaseTest d (s.modFence d fun f => { f with causes := f.causes.with c false })
    else s

/-- SETTLE_END (R92; log 8): the SECTOR event that ends the settle. -/
def execSettleEnd (d : DriveNo) (s : State) : Host.Outcome State Fault Refusal :=
  take s fun s =>
    match (s.drive d).arm, (s.sched d).selection with
    | .settling, some k => if k.settle ≤ 1 then sectorEvent d s else s
    | _, _ => s

/-- PASS_END (R108, R109; log 8): the event that ends the pass in progress. -/
def execPassEnd (d : DriveNo) (e : PassCloser) (s : State) : Host.Outcome State Fault Refusal :=
  take s fun s =>
    if endsPass s d e then
      match e with
      | .result sec r => sectorResult d sec r s
      | .sectorEvent => sectorEvent d s
      | .indexEvent => indexEvent d s
    else s

end Sys2Proof.Machine
end

