-- ==== Sys2Proof/Machine/LinkFrames.lean ====
section
/-! DEFINITION. The commands of the link ports (chapters 2 and 3): chains and their acceptance, data, answers to
offers, halts, resets of a link, and the timeouts of a port. -/

namespace Sys2Proof.Machine

/-- The immediate Ending of a chain (R24). -/
def immediateEnding (unit : BitVec 4) (tag : Byte) (cond : Condition) (entry : Option Nat) (sense : Option SenseRecord) :
    HostFrame :=
  .status ⟨unit, some tag, .ending, some cond, entry, none, senseDetail sense⟩

/-- The pre-step entries of a chain (R22). -/
def preSteps (es : List Entry) : List Entry := es.takeWhile fun e => !e.isSeek

/-- What executing the pre-step entries leaves: the state, the sense record taken last, and the failing entry, if one
did not complete (R25). -/
structure PreResult where
  state : State
  sense : Option SenseRecord
  failed : Option (Nat × Condition)

/-- The pre-step entries execute in list order until one fails (check 5 of R23, R25). -/
def runPre (l : LinkNo) (d : DriveNo) : List Entry → Nat → PreResult → PreResult
  | [], _, r => r
  | e :: es, i, r =>
    match e with
    | .sense => runPre l d es (i + 1) { r with sense := some (senseOf r.state d) }
    | .reserve wait =>
      let t := reserve l d wait r.state
      match reserveResult r.state l d wait with
      | none => runPre l d es (i + 1) { r with state := t }
      | some cond => { r with state := t, failed := some (i, cond) }
    | .release =>
      match releaseResult r.state l d with
      | none => runPre l d es (i + 1) { r with state := release l d r.state }
      | some cond => { r with failed := some (i, cond) }
    | _ => runPre l d es (i + 1) r

/-- A live chain of the link carries the tag (check 3 of R23). -/
def tagInUse (s : State) (l : LinkNo) (tag : Byte) : Bool :=
  allCtxs.any fun c => match s.ctx c with | some x => x.link == some l && x.tag == tag | none => false

/-- The lowest-numbered FREE context (R23). -/
def freeSlot (s : State) : Option CtxNo := allCtxs.find? fun c => (s.ctx c).isNone

/-- Checks 6a to 6e of R23 for a drive chain. -/
def driveCheck (s : State) (l : LinkNo) (d : DriveNo) : Option Condition :=
  if (s.drive d).arm = .notReady then some .notReady
  else if (s.track d).map ≠ .loaded then some .mapAbsent
  else if (s.fence d).flag then some .driveFenced
  else if (s.resv.get d).holder ≠ none ∧ (s.resv.get d).holder ≠ some l then some .reservedElsewhere
  else if Config.driveLoadLimit ≤ driveLoad s d then some .queueFull
  else none

/-- The context of an accepted chain (R27). -/
def newContext (s : State) (l : LinkNo) (d : DriveNo) (tag : Byte) (es : List Entry) (sense : Option SenseRecord) :
    Context where
  state := .waitStore .goingOn
  link := some l
  tag := tag
  drive := d
  order := s.acceptCount
  entries := es
  cur := (preSteps es).length
  home := none
  buffer := none
  failing := []
  sense := sense
  stop := .none
  ending := none
  expected := []
  deliver := []
  deliverCond := none

/-- A chain refused with CONTROLLER-BUSY may join the Context Wait List (R26). -/
def joinCtxWait (l : LinkNo) (notify : Bool) (s : State) : State :=
  if notify ∧ s.ctxWait.contains l = false then { s with ctxWait := s.ctxWait ++ [l] } else s

/-- Chain Control decides on a taken Command Frame whose entries are in order, from check 5 of R23 on. -/
def decideChain (l : LinkNo) (d : DriveNo) (tag : Byte) (notify : Bool) (es : List Entry) (s : State) : State :=
  let unit := BitVec.ofNat 4 d.val
  let r := runPre l d (preSteps es) 0 ⟨s, none, none⟩
  let t := r.state
  match r.failed with
  | some (i, cond) => t.frame l (immediateEnding unit tag cond (some i) r.sense)
  | none =>
    if (preSteps es).length = es.length then t.frame l (immediateEnding unit tag .complete none r.sense)
    else
      match driveCheck t l d with
      | some cond => t.frame l (immediateEnding unit tag cond none r.sense)
      | none =>
        match freeSlot t with
        | none => joinCtxWait l notify (t.frame l (immediateEnding unit tag .controllerBusy none r.sense))
        | some c =>
          (({ t.setCtx c (some (newContext t l d tag es r.sense)) with acceptCount := t.acceptCount + 1 }).frame l
            (.taken tag)).later [.startStep c]

/-- The acceptance order of R23 for a frame taken in IDLE. -/
def acceptance (l : LinkNo) (unit : BitVec 4) (tag : Byte) (notify : Bool) (count : Byte) (body : List Byte)
    (s : State) : State :=
  if h : unit.toNat < 8 then
    let d : DriveNo := ⟨unit.toNat, h⟩
    match readChain count body with
    | .bad entry => s.frame l (immediateEnding unit tag .formatError entry none)
    | .good es =>
      if tagInUse s l tag then s.frame l (immediateEnding unit tag .tagInUse none none)
      else if s.allowed l d = false then s.frame l (immediateEnding unit tag .noPath none none)
      else decideChain l d tag notify es s
  else s.frame l (immediateEnding unit tag .unitInvalid none none)

/-- COMMAND_FRAME (R20, R23, R24, R59, R61). -/
def execCommandFrame (l : LinkNo) (unit : BitVec 4) (tag : Byte) (notify : Bool) (count : Byte) (body : List Byte)
    (s : State) : Host.Outcome State Fault Refusal :=
  take s fun s =>
    match (s.port l).state with
    | .down => s
    | .idle => (acceptance l unit tag notify count body (setFloor l 0 s)).later [.choose l]
    | .offering _ | .connected _ _ => s.frame l (.linkBusy unit tag)

/-- DATA_FRAME (R30, R61, R63). -/
def execDataFrame (l : LinkNo) (tag sector : Byte) (data : List Byte) (s : State) : Host.Outcome State Fault Refusal :=
  take s fun s =>
    match (s.port l).state with
    | .connected c .toController =>
      match s.ctx c with
      | some x =>
        match x.expected, x.buffer with
        | y :: rest, some b =>
          if tag = x.tag ∧ sector.toNat = y.val then
            let t := storeFrame l b y data (s.modCtx c fun k => { k with expected := rest })
            if rest.isEmpty then
              advance c (goIdle l (t.modCtx c fun k => { k with state := .waitStore .goingOn }))
            else t
          else s
        | _, _ => s
      | none => s
    | _ => s

/-- ACCEPT (R38, R56). -/
def execAccept (l : LinkNo) (s : State) : Host.Outcome State Fault Refusal :=
  take s fun s =>
    match offered s l with
    | none => s
    | some i =>
      let t := setItems l ((s.present.get l).items.filter fun j => j.age != i.age) s
      match i.body with
      | .ending _ c => goIdle l (freeCtx c t)
      | .reconnect _ c dir _ =>
        (t.modPort l fun p => { p with state := .connected c dir }).modCtx c fun x => { x with state := .connected }
      | _ => goIdle l t

/-- DEFER (R57). -/
def execDefer (l : LinkNo) (s : State) : Host.Outcome State Fault Refusal := take s (putOff l)

/-- OFFER_TIMEOUT (R58): it acts as a Defer. -/
def execOfferTimeout (l : LinkNo) (s : State) : Host.Outcome State Fault Refusal := take s fun s => putOff l s

/-- RESUME (R59). -/
def execResume (l : LinkNo) (s : State) : Host.Outcome State Fault Refusal :=
  take s fun s => if (s.port l).state = .down then s else choose l (setFloor l 0 s)

/-- The context of a link that carries a tag (R39). -/
def ctxOfTag (s : State) (l : LinkNo) (tag : Byte) : Option CtxNo :=
  allCtxs.find? fun c => match s.ctx c with | some x => x.link == some l && x.tag == tag | none => false

/-- A Halt answered DONE acts on its context (R40, R41). -/
def haltCtx (c : CtxNo) (s : State) : State :=
  match s.ctx c with
  | some x =>
    if x.stop = .halt then s
    else if x.state = .active ∧ (s.drive x.drive).arm = .transferring then s.modCtx c fun y => { y with stop := .halt }
    else endChain c .halted none [] (detachArm x.drive) s
  | none => s

/-- The Halt finds no chain, or one whose ending exists (R39). -/
def haltTooLate (s : State) (l : LinkNo) (tag : Byte) : Bool :=
  match (ctxOfTag s l tag).bind s.ctx with
  | some x => x.state == .ending
  | none => true

/-- HALT (R39 to R41). -/
def execHalt (l : LinkNo) (tag : Byte) (s : State) : Host.Outcome State Fault Refusal :=
  take s fun s =>
    if (s.port l).state = .down then s
    else
      let late := haltTooLate s l tag
      let t := s.frame l (.haltAnswer tag late)
      match ctxOfTag s l tag with
      | some c => if late then t else haltCtx c t
      | none => t

/-- A context's pass runs to its end (R41, R42). -/
def inPass (s : State) (c : CtxNo) : Bool :=
  match s.ctx c with
  | some x => x.state == .active && (s.drive x.drive).arm == .transferring
  | none => false

/-- A context of a link that is reset (R42): discarded at the end of its pass, or withdrawn to be freed. -/
def resetCtx (c : CtxNo) (s : State) : State :=
  if inPass s c then s.modCtx c fun y => { y with stop := .discard, link := none }
  else (withdrawQuietly c s).later [.unpin c]

/-- Link Reset, with the port entering the given state (R42, R43, R77). The contexts become FREE when all their pins are
gone, so that CONTROLLER-FREE joins other links' sets after the items of chains that gain a buffer (R49; log 19). -/
def resetLink (l : LinkNo) (enters : LinkState) (s : State) : State :=
  let t := { s with ctxWait := s.ctxWait.filter fun k => k != l }
  let u := clearSet l (t.modPort l fun _ => ⟨enters, 0, none⟩)
  let cs := ctxsWhere u fun x => x.link == some l
  (each cs resetCtx u).later (((cs.filter fun c => !(inPass u c)).map .freeContext) ++ [.loseReservations l])

/-- LINK_RESET (R42). -/
def execLinkReset (l : LinkNo) (s : State) : Host.Outcome State Fault Refusal :=
  take s fun s => if (s.port l).state = .down then s else resetLink l .idle s

/-- The pin of a link's line moves (R53; log 10). -/
def setLine (l : LinkNo) (up : Bool) (s : State) : State := { s with lineUp := put s.lineUp l up }

/-- LINK_DOWN (R43, R78). -/
def execLinkDown (l : LinkNo) (s : State) : Host.Outcome State Fault Refusal :=
  take (setLine l false s) fun s =>
    if (s.port l).state = .down then s
    else (resetLink l .down s).modAuth l fun a => { a with full := false }

/-- LINK_UP (R43). -/
def execLinkUp (l : LinkNo) (s : State) : Host.Outcome State Fault Refusal :=
  take (setLine l true s) fun s =>
    if (s.port l).state = .down then clearSet l (s.modPort l fun _ => ⟨.idle, 0, none⟩) else s

/-- FRAME_CHECK_FAILURE (R201): the frame is discarded as if never received. -/
def execFrameCheckFailure (_l : LinkNo) (_frame : List Byte) (s : State) : Host.Outcome State Fault Refusal :=
  take s fun s => s

/-- The first WRITE entry of a step that has not received all its sectors, given the sectors still expected (R31). -/
def firstUnfilled (x : Context) : Option Nat :=
  let n := (x.entries.drop (x.cur + 1)).findIdx fun e => e.writes.any x.expected.contains
  if n < (x.entries.drop (x.cur + 1)).length then some (x.cur + 1 + n) else none

/-- DATA_TIMEOUT (R31, R63). -/
def execDataTimeout (l : LinkNo) (s : State) : Host.Outcome State Fault Refusal :=
  take s fun s =>
    match (s.port l).state with
    | .connected c .toController =>
      match s.ctx c with
      | some x => endChain c .linkTimeout (firstUnfilled x) [] id s
      | none => s
    | _ => s

/-- A delivery has sent its last frame: the link goes IDLE, and the READ completes or ends with its condition (R34,
R62). -/
def deliveryEnds (l : LinkNo) (c : CtxNo) (x : Context) (s : State) : State :=
  let t := goIdle l (s.modCtx c fun y => { y with state := .waitStore .goingOn, deliver := [] })
  match x.deliverCond with
  | some cond => t.later [.endChain c cond x.failing]
  | none => advance c (t.modCtx c fun y => { y with failing := [] })

/-- DELIVERY_FRAME (R62): the next Data Frame of a delivery, or BUFFER-CHECK at its sector (R125, R134). -/
def execDeliveryFrame (l : LinkNo) (s : State) : Host.Outcome State Fault Refusal :=
  take s fun s =>
    match (s.port l).state with
    | .connected c .toHost =>
      match s.ctx c with
      | some x =>
        match x.deliver, x.buffer with
        | (y, fill) :: rest, some b =>
          let sent := fun bytes =>
            let t := (s.frame l (.data x.tag y bytes)).modCtx c fun k => { k with deliver := rest }
            if rest.isEmpty then deliveryEnds l c x t else t
          if fill then sent fillData
          else
            match (s.buffer b).cell y with
            | none => endAtEntry c .bufferCheck [y] s
            | some k =>
              if k.bad then (parityFailure b y false (x.capturedBy .read) s).later [.endChain c .bufferCheck [y]]
              else sent k.data
        | _, _ => s
      | none => s
    | _ => s

end Sys2Proof.Machine
end

