-- ==== Sys2Proof/Decode.lean ====
section
/-! DEFINITION. The table gives no row any bits, so no word spells a command (log 1). What a port does with the bytes
of a received frame (R201 to R203) stands here as well: the frame check and the command that the bytes spell. -/

namespace Sys2Proof

/-- The command a word spells by the table's bits: none, since no row gives bits (log 1). -/
def decodeTableWord (_nbits _w : Nat) : Option Instr := none

/-- One bit of the frame check, the register's top bit first, generator x^16 + x^12 + x^5 + 1 (R201). -/
def crcBit (r : Word) : Word := if r.msb then (r <<< 1) ^^^ 0x1021#16 else r <<< 1

/-- One byte of the frame check, most significant bit first (R201). -/
def crcByte (r : Word) (b : Byte) : Word :=
  (List.range 8).foldl (fun acc _ => crcBit acc) (r ^^^ ((b.setWidth 16 : BitVec 16) <<< 8))

/-- The frame check over a string of bytes, started from all ones (R201). -/
def frameCheck (bs : List Byte) : Word := bs.foldl crcByte 0xFFFF#16

/-- A frame body with its check behind it, high byte first (R201). -/
def withCheck (bs : List Byte) : List Byte := bs ++ bytesOf (frameCheck bs).toNat

/-- The bytes before the check of a received frame whose check holds (R201). -/
def checked (frame : List Byte) : Option (List Byte) :=
  let body := frame.dropLast.dropLast
  if 3 ≤ frame.length ∧ withCheck body = frame then some body else none

/-- The management operation with the given code, over its operand block (R203). -/
def managementOp (cl : LinkNo) (tag : Byte) (code : Byte) (operand : List Byte) : Instr :=
  match code.toNat with
  | 1 => .attach cl tag operand none
  | 2 => .statusRead cl tag operand
  | 3 => .mapRead cl tag operand
  | 4 => .suspectRead cl tag operand
  | 5 => .bufferRead cl tag operand
  | 6 => .captureRead cl tag operand
  | 7 => .priorityWrite cl tag operand
  | 8 => .pathWrite cl tag operand
  | 9 => .policyWrite cl tag operand
  | 10 => .mapBegin cl tag operand
  | 11 => .mapLoad cl tag operand
  | 12 => .mapCommit cl tag operand
  | 13 => .relocate cl tag operand
  | 14 => .suspectPlace cl tag operand
  | 15 => .suspectRemove cl tag operand
  | 16 => .fenceForce cl tag operand
  | 17 => .fenceClear cl tag operand
  | 18 => .fencePurge cl tag operand
  | 19 => .forceRelease cl tag operand
  | 20 => .bufferDiscard cl tag operand
  | 21 => .parityForce cl tag operand
  | 22 => .controllerReset cl tag operand
  | _ => .manageInvalid cl tag (.unknownCode code)

/-- A frame for unit 15 holds a single MANAGE entry, or is refused by check 1 of R193 (R203; log 17). -/
def managementFrame (cl : LinkNo) (tag count : Byte) (body : List Byte) : Instr :=
  match body with
  | k :: code :: hi :: lo :: operand =>
    if count = 1#8 ∧ k = 8#8 ∧ operand.length = twoBytes hi lo then managementOp cl tag code operand
    else .manageInvalid cl tag .noSingleManage
  | _ => .manageInvalid cl tag .noSingleManage

/-- The command that a checked frame spells, by its type and length; none for an unknown type, a wrong length or a
type that only the controller sends (R201, R202). -/
def frameCommand (cl : LinkNo) (body : List Byte) : Option Instr :=
  match body with
  | [] => none
  | ty :: rest =>
    match ty.toNat, rest with
    | 1, u :: tag :: count :: entries =>
      if u.extractLsb' 4 4 = 15#4 then some (managementFrame cl tag count entries)
      else some (.commandFrame cl (u.extractLsb' 4 4) tag (u.getLsbD 0) count entries)
    | 2, tag :: sector :: data =>
      if data.length = Config.sectorBytes then some (.dataFrame cl tag sector data) else none
    | 3, [] => some (.accept cl)
    | 4, [] => some (.defer cl)
    | 5, [] => some (.resume cl)
    | 6, [tag] => some (.halt cl tag)
    | 7, [] => some (.linkReset cl)
    | _, _ => none

/-- The command that the bytes received on a link spell: a frame that is discarded is FRAME_CHECK_FAILURE (R201). -/
def receiveFrame (cl : LinkNo) (frame : List Byte) : Instr :=
  ((checked frame).bind (frameCommand cl)).getD (.frameCheckFailure cl frame)

end Sys2Proof
end

