-- ==== Sys2Proof/Machine/Frames.lean ====
section
/-! DEFINITION. The bytes of every frame sent and of every answer's data (R201 to R204). -/

namespace Sys2Proof.Machine

/-- A sector mask: bit n stands for sector n (R201). -/
def maskOf (xs : List SectorNo) : Nat := ((rising xs).map fun x => 2 ^ x.val).sum

/-- A link code: 255 for none (R201). -/
def linkCode : Option LinkNo → Byte
  | some l => byteOf l.val
  | none => 255#8

/-- A home track in three bytes (R201). -/
def homeBytes (h : HomeTrack) : List Byte := bytesOf h.cyl.val ++ [byteOf h.head.val]

/-- Arm state code (R204). -/
def ArmState.code : ArmState → Nat
  | .notReady => 0 | .recalibrating => 1 | .idle => 2 | .settling => 3
  | .seeking => 4 | .orienting => 5 | .transferring => 6 | .fenced => 7

/-- Map state code (R204). -/
def MapState.code : MapState → Nat
  | .absent => 0 | .loading => 1 | .loaded => 2

/-- Relocation phase code, 0 for none (R204). -/
def phaseCode : Option RelocPhase → Nat
  | none => 0
  | some .waitBuffer => 1
  | some .readOld => 2
  | some .writeNew => 3
  | some .verify => 4
  | some .commit => 5

/-- Causes present, FORCED included, as a byte (R204). -/
def causeByte (k : CauseSet) (forced : Bool) : Byte :=
  byteOf (k.writeFault.toNat + 2 * k.offTrack.toNat + 4 * k.speedLow.toNat + 8 * k.powerCheck.toNat + 16 * forced.toNat)

/-- Three wait list places, 255 where unused (R204). -/
def waitBytes (ws : List LinkNo) : List Byte :=
  [linkCode ws[0]?, linkCode ws[1]?, linkCode ws[2]?]

/-- The 17 bytes of a sense record (R204). -/
def SenseRecord.bytes (r : SenseRecord) : List Byte :=
  [byteOf r.arm.code]
    ++ bytesOf (match r.cyl with | some c => c.val | none => 65535)
    ++ [match r.sweep with | .inward => 0#8 | .outward => 1#8, linkCode r.holder, byteOf r.waitList.length]
    ++ waitBytes r.waitList
    ++ [flagByte r.fence, causeByte r.causes r.forced, byteOf r.map.code, byteOf r.free, byteOf r.inUse,
        byteOf r.retired, byteOf (phaseCode r.phase), byteOf r.load]

/-- Item kind code, in the kind order of R47 (R204). -/
def ItemKind.code : ItemKind → Nat
  | .ending => 1 | .reconnect => 2 | .reservationGranted => 3 | .reservationLost => 4 | .controllerFree => 5
  | .driveReady => 6 | .driveFenced => 7 | .fenceReleased => 8 | .trackRelocated => 9 | .spareAdvised => 10
  | .sparesLow => 11 | .bufferDataLost => 12 | .suspectListFull => 13

/-- Condition code (R204). -/
def Condition.code : Condition → Nat
  | .complete => 1 | .unitInvalid => 2 | .formatError => 3 | .tagInUse => 4 | .noPath => 5 | .notReady => 6
  | .mapAbsent => 7 | .driveFenced => 8 | .reservedElsewhere => 9 | .queueFull => 10 | .controllerBusy => 11
  | .dataCheck => 12 | .lostSector => 13 | .bufferCheck => 14 | .writeCheck => 15 | .seekCheck => 16
  | .driveDropped => 17 | .halted => 18 | .linkTimeout => 19 | .reserveQueued => 20 | .releaseNotHeld => 21

/-- Outcome byte (R204). -/
def RelocOutcome.code : RelocOutcome → Nat
  | .relocated => 1 | .failed => 2 | .abandoned => 3

/-- Detail form and detail (R204). -/
def Detail.bytes : Detail → List Byte
  | .none => [0#8]
  | .home h => 1#8 :: homeBytes h
  | .homeOutcome h o => 2#8 :: homeBytes h ++ [byteOf o.code]
  | .sense r => 3#8 :: r.bytes

/-- Status Frame after its type byte (R204). -/
def StatusFrame.bytes (f : StatusFrame) : List Byte :=
  [byteOf (f.unit.toNat * 16 + 8 * f.tag.isSome.toNat + 4 * f.entry.isSome.toNat + 2 * f.sectors.isSome.toNat),
    f.tag.getD 0#8, byteOf f.kind.code,
    byteOf (match f.cond with | some c => c.code | none => 0), byteOf (f.entry.getD 0)]
    ++ bytesOf (maskOf (f.sectors.getD [])) ++ f.detail.bytes

/-- Reason code (R204). -/
def Reason.code : Reason → Nat
  | .authority => 1 | .range => 2 | .state => 3 | .mapBusy => 4 | .relocateBusy => 5 | .loadError => 6
  | .cursorStale => 7 | .fenceCausePresent => 8 | .attachLocked => 9

/-- Management Response after the operation code (R204). -/
def Answer.bytes : Answer → List Byte
  | .accepted data => [0#8, 0#8, 255#8] ++ bytesOf data.length ++ data
  | .refused r item => [1#8, byteOf r.code, (match item with | some i => byteOf i | none => 255#8), 0#8, 0#8]

/-- A frame sent to a host, without its check (R202). -/
def HostFrame.body : HostFrame → List Byte
  | .taken tag => [9#8, tag]
  | .linkBusy unit tag => [10#8, byteOf (unit.toNat * 16), tag]
  | .status f => 11#8 :: f.bytes
  | .reconnect tag dir n => [12#8, tag, (match dir with | .toController => 0#8 | .toHost => 1#8), byteOf n]
  | .haltAnswer tag late => [14#8, tag, flagByte late]
  | .data tag sector bytes => [2#8, tag, byteOf sector.val] ++ bytes
  | .response code a => [15#8, code] ++ a.bytes

/-- A frame sent to a host, with its check (R201). -/
def HostFrame.bytes (f : HostFrame) : List Byte := withCheck f.body

/-- A map item of an entry (R203). -/
def MapEntry.bytes (e : MapEntry) : List Byte :=
  [0#8] ++ homeBytes e.home ++ [byteOf e.spare.val] ++ bytesOf (maskOf e.lost)

/-- A map item of a retired spare (R203). -/
def retiredBytes (i : SpareNo) : List Byte := [1#8, 0#8, 0#8, 0#8, byteOf i.val, 0#8, 0#8]

/-- A suspect entry of a SUSPECT-READ answer (R204). -/
def Suspect.bytes (e : Suspect) : List Byte :=
  [byteOf e.drive.val] ++ homeBytes e.home
    ++ [byteOf e.count, (match e.origin with | .detected => 0#8 | .placed => 1#8), flagByte e.spareDue, flagByte e.blocked]

/-- Buffer state code (R204). -/
def BufState.code : BufState → Nat
  | .empty => 0 | .clean => 1 | .dirty => 2 | .destaging => 3

/-- Destage code (R204). -/
def Destage.code : Destage → Nat
  | .none => 0 | .queued => 1 | .running => 2

/-- The 14 bytes of a buffer in BUFFER-READ (R204). An EMPTY buffer has no home track, and its three bytes are 0
(R201; log 46). -/
def bufferBytes (s : State) (b : BufNo) : List Byte :=
  let r := s.buffer b
  [byteOf r.state.code]
    ++ (match r.assigned with | some (d, h) => byteOf d.val :: homeBytes h | none => [255#8, 0#8, 0#8, 0#8])
    ++ bytesOf (maskOf r.valid) ++ bytesOf (maskOf r.dirty)
    ++ [byteOf (pins s b), flagByte r.relocPin, byteOf r.destage.code, linkCode r.lastWriter, flagByte r.parityForce]

/-- The buffer summary of BUFFER-READ (R139, R204). -/
def bufferSummary (s : State) : List Byte :=
  allBufs.flatMap (bufferBytes s) ++ s.lru.map (fun b => byteOf b.val) ++ [byteOf s.bufWait.length]

/-- The data of CAPTURE-READ (R135, R204). Link and tag are 0 unless the requester is READ or WRITE; the link of a
chain that no longer has one is 255 (log 32). -/
def captureBytes (s : State) : List Byte :=
  (match s.capture with
    | none => List.replicate 12 0#8
    | some k =>
      [1#8, byteOf k.buffer.val, byteOf k.drive.val] ++ homeBytes k.home
        ++ [byteOf k.sector.val, flagByte k.toDrive]
        ++ (match k.by_ with
          | .read l t => [0#8, linkCode l, t]
          | .write l t => [1#8, linkCode l, t]
          | .destage => [2#8, 0#8, 0#8]
          | .relocation => [3#8, 0#8, 0#8])
        ++ [flagByte k.dirty]) ++ [byteOf s.further]

end Sys2Proof.Machine
end

