-- ==== Sys2Proof/Machine/Management.lean ====
section
/-! DEFINITION. The Management Engine (chapter 11) and the management operations, each as its owning block's rule
gives it. An operation's verdict is its answer, what it does when the answer has been sent, and what it does after the
choice that follows the answer (R193; log 18). -/

namespace Sys2Proof.Machine

/-- Answer and effects of a management operation (R193). -/
structure Verdict where
  answer : Answer
  early : State → State
  late : List Task

/-- A refusal, which changes nothing (R193). -/
def refuse (r : Reason) : Verdict := ⟨.refused r none, id, []⟩

/-- An acceptance without data. -/
def accept (early : State → State) (late : List Task) : Verdict := ⟨.accepted [], early, late⟩

/-- The answer of an operation after checks 3 and 4 of R193. -/
def checkedVerdict (s : State) (l : LinkNo) (needsFull lengthOk : Bool) (verdict : State → Verdict) : Verdict :=
  if needsFull && !(s.auth.get l).full then refuse .authority
  else if lengthOk then verdict s
  else refuse .range

/-- A management frame (R193): taken in IDLE, with the floor set to 0; answered, its effects made, and the choice of
R54 made. In OFFERING or CONNECTED it is answered Link Busy (R61). -/
def manage (l : LinkNo) (tag code : Byte) (needsFull lengthOk : Bool) (verdict : State → Verdict) (s : State) : State :=
  match (s.port l).state with
  | .down => s
  | .idle =>
    let t := setFloor l 0 s
    let v := checkedVerdict t l needsFull lengthOk verdict
    (v.early (t.frame l (.response code v.answer))).later (.choose l :: v.late)
  | .offering _ | .connected _ _ => s.frame l (.linkBusy (BitVec.ofNat 4 Config.controllerUnit) tag)

/-- MANAGE_INVALID (R193): RANGE, with operation code 0 where there is no single MANAGE entry. -/
def execManageInvalid (l : LinkNo) (tag : Byte) (why : ManageFault) (s : State) : Host.Outcome State Fault Refusal :=
  take s (manage l tag (match why with | .noSingleManage => 0#8 | .unknownCode k => k) false true
    fun _ => refuse .range)

/-- The decision of an ATTACH (R195). -/
def attachVerdict (l : LinkNo) (identity : List Byte) (s : State) : Verdict :=
  let grant := fun t : State => t.modAuth l fun a => { a with full := true }
  if (s.auth.get l).locked then refuse .attachLocked
  else if s.attachMemory then accept grant []
  else if identity = s.switches.toList then accept (fun t => { grant t with attachMemory := true }) []
  else ⟨.refused .authority none, fun t => t.modAuth l fun a => { a with locked := true }, []⟩

/-- The identity switches turn (log 7). -/
def turnSwitches (turned : Option (Vector Byte 8)) (s : State) : State :=
  match turned with
  | some v => { s with switches := v }
  | none => s

/-- ATTACH (R195). A turn of the switches that comes with it is made first (log 7). -/
def execAttach (l : LinkNo) (tag : Byte) (operand : List Byte) (turned : Option (Vector Byte 8)) (s : State) :
    Host.Outcome State Fault Refusal :=
  take (turnSwitches turned s) (manage l tag 1#8 false (operand.length == 8) (attachVerdict l operand))

/-- STATUS_READ (R197). -/
def execStatusRead (l : LinkNo) (tag : Byte) (operand : List Byte) (s : State) : Host.Outcome State Fault Refusal :=
  take s (manage l tag 2#8 false (operand.length == 1) fun s =>
    match operand.head?.bind readDrive with
    | some d => ⟨.accepted (byteOf d.val :: (senseOf s d).bytes), id, []⟩
    | none => refuse .range)

/-- The sequence of map items that MAP-READ returns, each with the mark it leaves in a cursor (R149). -/
def mapSequence (t : Tracks) : List (MapMark × List Byte) :=
  t.entries.map (fun e => (.entry e.home, e.bytes))
    ++ (allSpares.filter fun i => t.pool.get i == .retired).map fun i => (.retired i, retiredBytes i)

/-- An item of the sequence comes after a mark (R148, R149). -/
def MapMark.before : MapMark → MapMark → Bool
  | .entry h, .entry k => decide (h.key < k.key)
  | .entry _, .retired _ => true
  | .retired _, .entry _ => false
  | .retired i, .retired j => decide (i < j)

/-- A cursor is set on a link (R148, R174). -/
def setCursor (l : LinkNo) (k : Option Cursor) (s : State) : State := s.modPort l fun p => { p with cursor := k }

/-- Where a MAP-READ without restart goes on: the last item of a cursor of kind MAP that names the drive (R149). -/
def mapLast (k : Option Cursor) (d : DriveNo) : Option MapMark :=
  match k with
  | some (.map e last _) => if e = d then last else none
  | _ => none

/-- A MAP-READ without restart meets a stale cursor (R149). -/
def mapStale (k : Option Cursor) (d : DriveNo) : Bool :=
  match k with
  | some (.map e _ stale) => e == d && stale
  | _ => false

/-- The decision of MAP-READ (R149). -/
def mapReadVerdict (l : LinkNo) (d : DriveNo) (restart : Bool) (s : State) : Verdict :=
  let cursor := (s.port l).cursor
  if (s.track d).map ≠ .loaded then refuse .state
  else if restart = false ∧ mapStale cursor d then ⟨.refused .cursorStale none, setCursor l none, []⟩
  else
    let last : Option MapMark := if restart then none else mapLast cursor d
    let rest : List (MapMark × List Byte) := match last with
      | some m => (mapSequence (s.track d)).filter fun i => m.before i.1
      | none => mapSequence (s.track d)
    let out := rest.take Config.readItems
    let mark := match out.getLast? with | some i => some i.1 | none => last
    ⟨.accepted ([byteOf out.length, flagByte (decide (rest.length ≤ Config.readItems))] ++ out.flatMap (·.2)),
      setCursor l (some (.map d mark false)), []⟩

/-- MAP_READ (R149). -/
def execMapRead (l : LinkNo) (tag : Byte) (operand : List Byte) (s : State) : Host.Outcome State Fault Refusal :=
  take s (manage l tag 3#8 false (operand.length == 2) fun s =>
    match operand with
    | [a, b] =>
      match readDrive a, readFlag b with
      | some d, some restart => mapReadVerdict l d restart s
      | _, _ => refuse .range
    | _ => refuse .range)

/-- The entries of the Suspect Track List after the one a cursor names (R174). -/
def suspectsAfter (es : List Suspect) (last : Option (DriveNo × HomeTrack)) : List Suspect :=
  match last with
  | some (d, h) => (es.dropWhile fun e => !(e.isFor d h)).drop 1
  | none => es

/-- The decision of SUSPECT-READ (R174). -/
def suspectReadVerdict (l : LinkNo) (restart : Bool) (s : State) : Verdict :=
  let cursor := (s.port l).cursor
  let stale : Bool := match cursor with | some (.suspect _ k) => k | _ => false
  if restart = false ∧ stale then ⟨.refused .cursorStale none, setCursor l none, []⟩
  else
    let last : Option (DriveNo × HomeTrack) :=
      match cursor with | some (.suspect k _) => if restart then none else k | _ => none
    let rest := suspectsAfter s.suspects last
    let out := rest.take Config.readItems
    let mark := match out.getLast? with | some e => some (e.drive, e.home) | none => last
    ⟨.accepted ([byteOf out.length, flagByte (decide (rest.length ≤ Config.readItems))] ++ out.flatMap Suspect.bytes),
      setCursor l (some (.suspect mark false)), []⟩

/-- SUSPECT_READ (R174). -/
def execSuspectRead (l : LinkNo) (tag : Byte) (operand : List Byte) (s : State) : Host.Outcome State Fault Refusal :=
  take s (manage l tag 4#8 false (operand.length == 1) fun s =>
    match operand.head?.bind readFlag with
    | some restart => suspectReadVerdict l restart s
    | none => refuse .range)

/-- BUFFER_READ (R139). -/
def execBufferRead (l : LinkNo) (tag : Byte) (operand : List Byte) (s : State) : Host.Outcome State Fault Refusal :=
  take s (manage l tag 5#8 false operand.isEmpty fun s => ⟨.accepted (bufferSummary s), id, []⟩)

/-- CAPTURE_READ (R135): the record is emptied and the count set to 0. -/
def execCaptureRead (l : LinkNo) (tag : Byte) (operand : List Byte) (s : State) : Host.Outcome State Fault Refusal :=
  take s (manage l tag 6#8 false operand.isEmpty fun s =>
    ⟨.accepted (captureBytes s), fun t => { t with capture := none, further := 0 }, []⟩)

/-- A Notice Priority Table is replaced; another link's choice is made again at once (R52, R196). -/
def writeLevels (l target : LinkNo) (levels : Vector (Fin 16) 13) (s : State) : State :=
  let t := s.modPresent target fun p => { p with levels := levels }
  if target = l then t else choose target t

/-- PRIORITY_WRITE (R52, R196). -/
def execPriorityWrite (l : LinkNo) (tag : Byte) (operand : List Byte) (s : State) : Host.Outcome State Fault Refusal :=
  take s (manage l tag 7#8 false (operand.length == 14) fun s =>
    match operand.head?.bind readLink with
    | none => refuse .range
    | some target =>
      if target ≠ l ∧ (s.auth.get l).full = false then refuse .authority
      else
        match readLevels operand.tail with
        | none => refuse .range
        | some levels => accept (writeLevels l target levels) [])

/-- A Path Table row is replaced, and each drive's change acts in rising drive number (R66 to R68). -/
def writeRow (target : LinkNo) (row : Vector Bool 8) (s : State) : State :=
  let was := s.paths.get target
  each allDrives (fun d t => if was.get d && !(row.get d) then losePath target d t else t)
    { s with paths := put s.paths target row }

/-- The bytes of a Path Table row: 0 ALLOWED, 1 BARRED (R204). -/
def rowBytes (row : Vector Bool 8) : List Byte := row.toList.map fun a => flagByte (!a)

/-- PATH_WRITE (R66). -/
def execPathWrite (l : LinkNo) (tag : Byte) (operand : List Byte) (s : State) : Host.Outcome State Fault Refusal :=
  take s (manage l tag 8#8 true (operand.length == 9) fun s =>
    match operand.head?.bind readLink, readRow operand.tail with
    | some target, some row => ⟨.accepted (rowBytes (s.paths.get target)), writeRow target row, []⟩
    | _, _ => refuse .range)

/-- An accepted POLICY-WRITE: the Fence Sources at once and the fence evaluated again, then the Pending Policy, current
at once on an IDLE arm (R18, R19; log 15, log 21). -/
def writePolicy (d : DriveNo) (p : Policy) (s : State) : State :=
  let t := s.modDrive d fun r => { r with policy := { r.policy with fenceSources := p.fenceSources } }
  let u := (autoReleaseTest d (fenceTest d t)).modDrive d fun r => { r with pending := some p }
  if (u.drive d).arm = .idle then applyPolicy joinInTurn d u else u

/-- POLICY_WRITE (R18). -/
def execPolicyWrite (l : LinkNo) (tag : Byte) (operand : List Byte) (s : State) : Host.Outcome State Fault Refusal :=
  take s (manage l tag 9#8 true (operand.length == 13) fun _ =>
    match operand.head?.bind readDrive, readPolicy operand.tail with
    | some d, some p => accept (writePolicy d p) []
    | _, _ => refuse .range)

/-- A management operation whose operand is one drive number. -/
def driveVerdict (operand : List Byte) (decide : DriveNo → Verdict) : Verdict :=
  match operand.head?.bind readDrive with
  | some d => decide d
  | none => refuse .range

/-- MAP-BEGIN finds the drive busy (R145). -/
def mapBusy (s : State) (d : DriveNo) : Bool :=
  decide (0 < driveLoad s d) || (s.track d).reloc.isSome ||
    allBufs.any fun b => (s.buffer b).ofDrive d && ((s.buffer b).state == .dirty || (s.buffer b).state == .destaging)

/-- An accepted MAP-BEGIN (R145). -/
def beginMap (d : DriveNo) (s : State) : State :=
  let t := s.modTracks d fun k =>
    { k with map := .loading, entries := [], retired := [], pool := Vector.replicate 40 .free }
  let u := removeSuspects (fun e => e.drive == d) (if (s.track d).map = .loaded then endSparesLow d t else t)
  let v := each (allBufs.filter fun b => (u.buffer b).ofDrive d && (u.buffer b).state == .clean) emptyBuffer u
  staleMapCursors d (serve v)

/-- MAP_BEGIN (R145). -/
def execMapBegin (l : LinkNo) (tag : Byte) (operand : List Byte) (s : State) : Host.Outcome State Fault Refusal :=
  take s (manage l tag 10#8 true (operand.length == 1) fun s => driveVerdict operand fun d =>
    if (s.drive d).arm = .notReady then refuse .state
    else if mapBusy s d then refuse .mapBusy
    else accept (beginMap d) [])

/-- The item check of MAP-LOAD (R146): the item as the map would take it, given the home tracks and spares already
named. A mask names no sector above 15 and none twice. -/
def checkItem (homes : List HomeTrack) (spares : List SpareNo) : RawItem → Option (Option HomeTrack × SpareNo × List SectorNo)
  | .entry hi lo head spare mask =>
    match readHome hi lo head, readSpare spare with
    | some h, some i => if homes.contains h ∨ spares.contains i then none else some (some h, i, ofMask mask)
    | _, _ => none
  | .retired spare =>
    match readSpare spare with
    | some i => if spares.contains i then none else some (none, i, [])
    | none => none

/-- The items of a MAP-LOAD frame are taken one after another into a copy of the map; the index of the first that fails
the check is answered in place of the map (R146). -/
def loadItems : List RawItem → Nat → Tracks → Tracks ⊕ Nat
  | [], _, t => .inl t
  | i :: r, n, t =>
    match checkItem (t.entries.map (·.home)) (t.entries.map (·.spare) ++ t.retired) i with
    | none => .inr n
    | some (some h, k, lost) => loadItems r (n + 1) { t with entries := putEntry ⟨h, k, lost⟩ t.entries }
    | some (none, k, _) => loadItems r (n + 1) { t with retired := t.retired ++ [k] }

/-- MAP_LOAD (R146). -/
def execMapLoad (l : LinkNo) (tag : Byte) (operand : List Byte) (s : State) : Host.Outcome State Fault Refusal :=
  take s (manage l tag 11#8 true
      (match operand with | _ :: n :: _ => operand.length == 2 + 7 * n.toNat | _ => false) fun s =>
    match operand with
    | a :: n :: items =>
      match readDrive a, readItems n.toNat items with
      | some d, some raw =>
        if raw.length < 1 ∨ 8 < raw.length then refuse .range
        else if (s.track d).map ≠ .loading then refuse .state
        else
          match loadItems raw 0 (s.track d) with
          | .inl t => accept (fun u => u.modTracks d fun _ => t) []
          | .inr i => ⟨.refused .loadError (some i), id, []⟩
      | _, _ => refuse .range
    | _ => refuse .range)

/-- The pool that MAP-COMMIT sets from the loaded map (R147). -/
def poolOf (t : Tracks) : Vector SpareState 40 :=
  Vector.ofFn fun i =>
    if (t.entries.map (·.spare)).contains i then .inUse else if t.retired.contains i then .retired else .free

/-- An accepted MAP-COMMIT (R147). -/
def commitMap (d : DriveNo) (s : State) : State :=
  staleMapCursors d (evalSpares d (s.modTracks d fun t => { t with pool := poolOf t, retired := [], map := .loaded }))

/-- MAP_COMMIT (R147). -/
def execMapCommit (l : LinkNo) (tag : Byte) (operand : List Byte) (s : State) : Host.Outcome State Fault Refusal :=
  take s (manage l tag 12#8 true (operand.length == 1) fun s => driveVerdict operand fun d =>
    if (s.track d).map ≠ .loading then refuse .state else accept (commitMap d) [])

/-- A management operation whose operand is a drive and a home track. -/
def trackVerdict (operand : List Byte) (decide : DriveNo → HomeTrack → Verdict) : Verdict :=
  match operand with
  | a :: hi :: lo :: head :: _ =>
    match readDrive a, readHome hi lo head with
    | some d, some h => decide d h
    | _, _ => refuse .range
  | _ => refuse .range

/-- RELOCATE (R155): the relocation is created after the response. -/
def execRelocate (l : LinkNo) (tag : Byte) (operand : List Byte) (s : State) : Host.Outcome State Fault Refusal :=
  take s (manage l tag 13#8 true (operand.length == 4) fun s => trackVerdict operand fun d h =>
    if (s.track d).map ≠ .loaded then refuse .state
    else if (s.track d).reloc.isSome then refuse .relocateBusy
    else accept id [.createRelocation d h])

/-- The decision of SUSPECT-PLACE (R172): the threshold test is made after the response. -/
def placeVerdict (s : State) (d : DriveNo) (h : HomeTrack) (count : Nat) : Verdict :=
  if (s.track d).map ≠ .loaded ∨ (suspectOf s d h).isSome ∨ Config.suspectPlaces ≤ s.suspects.length then refuse .state
  else accept (fun t => { t with suspects := t.suspects ++ [⟨d, h, count, .placed, false, false⟩] }) [.threshold d h]

/-- SUSPECT_PLACE (R172). -/
def execSuspectPlace (l : LinkNo) (tag : Byte) (operand : List Byte) (s : State) : Host.Outcome State Fault Refusal :=
  take s (manage l tag 14#8 true (operand.length == 5) fun s => trackVerdict operand fun d h =>
    match operand.getLast?.bind (readWithin 0 15) with
    | some n => placeVerdict s d h n
    | none => refuse .range)

/-- SUSPECT_REMOVE (R173). -/
def execSuspectRemove (l : LinkNo) (tag : Byte) (operand : List Byte) (s : State) : Host.Outcome State Fault Refusal :=
  take s (manage l tag 15#8 true (operand.length == 4) fun s => trackVerdict operand fun d h =>
    if (suspectOf s d h).isSome then accept (removeSuspects fun e => e.isFor d h) [] else refuse .state)

/-- FENCE_FORCE (R180): the fence test is made after the response. -/
def execFenceForce (l : LinkNo) (tag : Byte) (operand : List Byte) (s : State) : Host.Outcome State Fault Refusal :=
  take s (manage l tag 16#8 true (operand.length == 1) fun _ => driveVerdict operand fun d =>
    accept (fun t => t.modFence d fun f => { f with forced := true }) [.fenceTest d])

/-- FENCE_CLEAR (R188). -/
def execFenceClear (l : LinkNo) (tag : Byte) (operand : List Byte) (s : State) : Host.Outcome State Fault Refusal :=
  take s (manage l tag 17#8 true (operand.length == 1) fun s => driveVerdict operand fun d =>
    if (s.fence d).flag = false then refuse .state
    else if selectedCause s d then refuse .fenceCausePresent
    else accept (fun t => clearFlag d (t.modFence d fun f => { f with forced := false })) [])

/-- FENCE_PURGE (R191): the endings are made after the response. -/
def execFencePurge (l : LinkNo) (tag : Byte) (operand : List Byte) (s : State) : Host.Outcome State Fault Refusal :=
  take s (manage l tag 18#8 true (operand.length == 1) fun s => driveVerdict operand fun d =>
    if (s.fence d).flag = false then refuse .state else accept id [.purge d])

/-- FORCE_RELEASE (R76). -/
def execForceRelease (l : LinkNo) (tag : Byte) (operand : List Byte) (s : State) : Host.Outcome State Fault Refusal :=
  take s (manage l tag 19#8 true (operand.length == 2) fun s =>
    match operand with
    | [a, b] =>
      match readDrive a, readLink b with
      | some d, some k => if (s.resv.get d).holder = some k then accept (takeAway k d) [] else refuse .state
      | _, _ => refuse .range
    | _ => refuse .range)

/-- A management operation whose operand is one buffer number. -/
def bufferVerdict (operand : List Byte) (decide : BufNo → Verdict) : Verdict :=
  match operand.head?.bind readBuf with
  | some b => decide b
  | none => refuse .range

/-- An accepted BUFFER-DISCARD of a CLEAN or DIRTY buffer (R138). -/
def discard (b : BufNo) (s : State) : State :=
  match (s.buffer b).assigned with
  | some (d, _) =>
    let xs := (s.buffer b).dirty
    let queued := (s.buffer b).destage == .queued
    let t := if xs.isEmpty then s else dataLost b xs s
    let u := serve (emptyOf d b (if queued then leaveQueue d (.destage b) t else t))
    if queued then reclaimCheck u else u
  | none => s

/-- BUFFER_DISCARD (R138). -/
def execBufferDiscard (l : LinkNo) (tag : Byte) (operand : List Byte) (s : State) : Host.Outcome State Fault Refusal :=
  take s (manage l tag 20#8 true (operand.length == 1) fun s => bufferVerdict operand fun b =>
    if pinned s b ∨ (s.buffer b).state = .destaging then refuse .state else accept (discard b) [])

/-- PARITY_FORCE (R136). -/
def execParityForce (l : LinkNo) (tag : Byte) (operand : List Byte) (s : State) : Host.Outcome State Fault Refusal :=
  take s (manage l tag 21#8 true (operand.length == 1) fun _ => bufferVerdict operand fun b =>
    accept (fun t => t.modBuffer b fun r => { r with parityForce := true }) [])

end Sys2Proof.Machine
end

