-- ==== Sys2Proof/Machine/Resets.lean ====
section
/-! DEFINITION. Controller Reset and power-on clear (R199, R200), each block as its own rules give. -/

namespace Sys2Proof.Machine

/-- Ports and Presentation Control at a Controller Reset, and authority (R64, R194). -/
def resetPort (l : LinkNo) (s : State) : State :=
  let t := clearSet l (s.modAuth l fun _ => ⟨false, false⟩)
  if (s.port l).state = .down then t else t.modPort l fun _ => ⟨.idle, 0, none⟩

/-- A relocation is abandoned without notice; the spares-low flag is evaluated without an item (R163, R166; log 22). -/
def dropRelocation (d : DriveNo) (s : State) : State :=
  match (s.track d).reloc with
  | some r =>
    let t := match r.newSpare with | some i => setSpare d i .free s | none => s
    let u := match r.buffer with | some b => t.modBuffer b fun k => { k with relocPin := false } | none => t
    u.modTracks d fun k => { k with reloc := none }
  | none => s

/-- The spares-low flag takes the value of its condition, and no item is raised or withdrawn (R152; log 22). -/
def sparesQuietly (d : DriveNo) (s : State) : State :=
  s.modTracks d fun t =>
    { t with sparesLow := t.map == .loaded && decide (spareCount t .free ≤ (s.policy d).spareLowMark) }

/-- The arm of a drive at a Controller Reset (R16, R100, R117). A DESTAGE selection is kept. A seek or pass for a STEP
or a relocation runs out: the record of a STEP stays, detached, and that of a relocation is removed with it. An arm in
SETTLING or ORIENTING for them enters IDLE at the end of the reset (`resetToIdle`). -/
def resetArm (d : DriveNo) (s : State) : State :=
  match (s.sched d).selection with
  | none => s
  | some k =>
    let left := fun kept : Option Selection =>
      let t := s.modSched d fun q => { q with selection := kept }
      match (s.drive d).arm with
      | .seeking => t
      | .transferring => modPass (fun p => if p.drive = d then { p with dropped := true } else p) t
      | _ => s
    match k.work with
    | .destage _ => s
    | .step _ => left (some { k with detached := true })
    | .relocation _ => left none

/-- The arm was SETTLING or ORIENTING for a STEP or a relocation, and now enters IDLE (R16). -/
def resetToIdle (s : State) (d : DriveNo) : Bool :=
  match (s.sched d).selection, (s.drive d).arm with
  | some k, .settling | some k, .orienting => match k.work with | .destage _ => false | _ => true
  | _, _ => false

/-- A Pending Policy becomes current by an entry to IDLE that the reset makes; no item is raised (R18, R64; log 22). -/
def policyQuietly (d : DriveNo) (s : State) : State :=
  match (s.drive d).pending with
  | some p =>
    let t := s.modDrive d fun r => { r with policy := p, pending := none }
    if p.spareLowMark = (s.policy d).spareLowMark then t else sparesQuietly d t
  | none => s

/-- A CLEAN buffer is emptied, unless a pass that the reset ends at its sector is reading its track into it (R141). -/
def resetBuffer (b : BufNo) (s : State) : State :=
  let reading := match s.path.grant with | some p => p.dir == .read && p.buffer == b && p.holds s | none => false
  if (s.buffer b).state = .clean ∧ reading = false then emptyBuffer b s else s

/-- The whole of a Controller Reset (R199): ports, contexts, reservations, relocations, arms, path, buffers, suspect
entries; then the destage items and the arms that enter IDLE. -/
def resetController (s : State) : State :=
  let s1 := each allLinks resetPort s
  let s2 : State := { s1 with
    contexts := Vector.replicate 16 none, ctxWait := [], resv := Vector.replicate 8 ⟨none, []⟩, bufWait := [] }
  let s3 := each (allDrives.filter fun d => (s2.track d).reloc.isSome) (fun d t => sparesQuietly d (dropRelocation d t)) s2
  let s4 := each allDrives resetArm s3
  let s5 : State := { s4 with
    path := { s4.path with booking := none },
    suspects := s4.suspects.map fun e => { e with spareDue := false } }
  let s6 := each allDrives (fun d t => t.modSched d fun q =>
    { q with queue := q.queue.filter fun i => match i.work with | .step _ => false | _ => true }) s5
  let s7 := each allBufs resetBuffer s6
  let s8 := joinInTurn (allBufs.filter (wantsItem s7)) s7
  each (allDrives.filter (resetToIdle s8)) (fun d t => enterIdle d (policyQuietly d t)) s8

/-- CONTROLLER_RESET (R199): answered, and the reset then takes effect. -/
def execControllerReset (l : LinkNo) (tag : Byte) (operand : List Byte) (s : State) : Host.Outcome State Fault Refusal :=
  take s (manage l tag 22#8 true operand.isEmpty fun _ => accept resetController [])

/-- The port of a link after power-on clear: IDLE if the line is up, DOWN otherwise (R200). -/
def portAfterClear (up : Bool) : Port := ⟨if up then .idle else .down, 0, none⟩

/-- POWER_ON_CLEAR (R200): the line is released, and every record holds its power-on value. The pins keep their levels,
and what was sent and what waits are not records of the K740 (log 10). -/
def execPowerOnClear (s : State) : Host.Outcome State Fault Refusal :=
  .next { State.reset with
    ports := Vector.ofFn fun l => portAfterClear (s.lineUp.get l)
    lineUp := s.lineUp
    switches := s.switches
    sent := s.sent
    pending := s.pending }

/-- POWER_ON_CLEAR_ASSERTED (R200): until the line is released nothing is taken and nothing sent. -/
def execPowerOnClearAsserted (s : State) : Host.Outcome State Fault Refusal := .next { s with clearLine := true }

end Sys2Proof.Machine
end

