-- ==== Sys2Proof/Machine/Dispatch.lean ====
section
/-! DEFINITION. One arm for each command: the command's effect on everything but the queue. -/

namespace Sys2Proof.Machine

def exec (i : Instr) (s : State) : Host.Outcome State Fault Refusal :=
  match i with
  | .commandFrame cl unit tag notify count body => Sys2Proof.Machine.execCommandFrame cl unit tag notify count body s
  | .dataFrame cl tag sector data => Sys2Proof.Machine.execDataFrame cl tag sector data s
  | .accept cl => Sys2Proof.Machine.execAccept cl s
  | .defer cl => Sys2Proof.Machine.execDefer cl s
  | .resume cl => Sys2Proof.Machine.execResume cl s
  | .halt cl tag => Sys2Proof.Machine.execHalt cl tag s
  | .linkReset cl => Sys2Proof.Machine.execLinkReset cl s
  | .linkDown cl => Sys2Proof.Machine.execLinkDown cl s
  | .linkUp cl => Sys2Proof.Machine.execLinkUp cl s
  | .frameCheckFailure cl frame => Sys2Proof.Machine.execFrameCheckFailure cl frame s
  | .manageInvalid cl tag why => Sys2Proof.Machine.execManageInvalid cl tag why s
  | .attach cl tag operand turned => Sys2Proof.Machine.execAttach cl tag operand turned s
  | .statusRead cl tag operand => Sys2Proof.Machine.execStatusRead cl tag operand s
  | .mapRead cl tag operand => Sys2Proof.Machine.execMapRead cl tag operand s
  | .suspectRead cl tag operand => Sys2Proof.Machine.execSuspectRead cl tag operand s
  | .bufferRead cl tag operand => Sys2Proof.Machine.execBufferRead cl tag operand s
  | .captureRead cl tag operand => Sys2Proof.Machine.execCaptureRead cl tag operand s
  | .priorityWrite cl tag operand => Sys2Proof.Machine.execPriorityWrite cl tag operand s
  | .pathWrite cl tag operand => Sys2Proof.Machine.execPathWrite cl tag operand s
  | .policyWrite cl tag operand => Sys2Proof.Machine.execPolicyWrite cl tag operand s
  | .mapBegin cl tag operand => Sys2Proof.Machine.execMapBegin cl tag operand s
  | .mapLoad cl tag operand => Sys2Proof.Machine.execMapLoad cl tag operand s
  | .mapCommit cl tag operand => Sys2Proof.Machine.execMapCommit cl tag operand s
  | .relocate cl tag operand => Sys2Proof.Machine.execRelocate cl tag operand s
  | .suspectPlace cl tag operand => Sys2Proof.Machine.execSuspectPlace cl tag operand s
  | .suspectRemove cl tag operand => Sys2Proof.Machine.execSuspectRemove cl tag operand s
  | .fenceForce cl tag operand => Sys2Proof.Machine.execFenceForce cl tag operand s
  | .fenceClear cl tag operand => Sys2Proof.Machine.execFenceClear cl tag operand s
  | .fencePurge cl tag operand => Sys2Proof.Machine.execFencePurge cl tag operand s
  | .forceRelease cl tag operand => Sys2Proof.Machine.execForceRelease cl tag operand s
  | .bufferDiscard cl tag operand => Sys2Proof.Machine.execBufferDiscard cl tag operand s
  | .parityForce cl tag operand => Sys2Proof.Machine.execParityForce cl tag operand s
  | .controllerReset cl tag operand => Sys2Proof.Machine.execControllerReset cl tag operand s
  | .offerTimeout cl => Sys2Proof.Machine.execOfferTimeout cl s
  | .dataTimeout cl => Sys2Proof.Machine.execDataTimeout cl s
  | .seekTimeout d => Sys2Proof.Machine.execSeekTimeout d s
  | .recalibrateTimeout d => Sys2Proof.Machine.execRecalibrateTimeout d s
  | .ready d => Sys2Proof.Machine.execReady d s
  | .notReady d => Sys2Proof.Machine.execNotReady d s
  | .seekDone d good => Sys2Proof.Machine.execSeekDone d good s
  | .recalDone d good => Sys2Proof.Machine.execRecalDone d good s
  | .index d => Sys2Proof.Machine.execIndex d s
  | .sector d => Sys2Proof.Machine.execSector d s
  | .sectorResult d sec r => Sys2Proof.Machine.execSectorResult d sec r s
  | .conditionRaised d c => Sys2Proof.Machine.execConditionRaised d c s
  | .conditionCleared d c => Sys2Proof.Machine.execConditionCleared d c s
  | .powerOnClear => Sys2Proof.Machine.execPowerOnClear s
  | .settleEnd d => Sys2Proof.Machine.execSettleEnd d s
  | .passEnd d e => Sys2Proof.Machine.execPassEnd d e s
  | .deliveryFrame cl => Sys2Proof.Machine.execDeliveryFrame cl s
  | .powerOnClearAsserted => Sys2Proof.Machine.execPowerOnClearAsserted s

end Sys2Proof.Machine
end

