-- ==== Sys2Proof/Safety.lean ====
section
/-! DEFINITION. The laws that every step of the K740 keeps, each a property of one state. -/

namespace Sys2Proof.Machine

/-- The laws of the Reservation Records (R69): the holder is not on its drive's wait list, the list holds no link twice
and no BARRED link, the holder is not BARRED, and a drive with waiters has a holder. -/
def reservationLaw (s : State) : Prop :=
  ∀ d : DriveNo,
    (s.resv.get d).waitList.Nodup ∧
    (∀ l ∈ (s.resv.get d).waitList, s.allowed l d = true ∧ (s.resv.get d).holder ≠ some l) ∧
    (∀ l, (s.resv.get d).holder = some l → s.allowed l d = true) ∧
    ((s.resv.get d).waitList ≠ [] → (s.resv.get d).holder ≠ none)

/-- A FULL link finds Attach Memory set (R195). -/
def authorityLaw (s : State) : Prop := ∀ l : LinkNo, (s.auth.get l).full = true → s.attachMemory = true

/-- Every buffer's store is in canonical form (log 31). -/
def storeLaw (s : State) : Prop := ∀ b : BufNo, cellsWf (s.buffer b).cells = true

/-- The LRU order lists all six buffers, none twice (R120). -/
def lruLaw (s : State) : Prop := s.lru.Perm allBufs

/-- No two buffers hold the same drive and home track (R122). -/
def bufferLaw (s : State) : Prop :=
  ∀ b c : BufNo, (s.buffer b).assigned ≠ none → (s.buffer b).assigned = (s.buffer c).assigned → b = c

/-- The fence flag and release-pending are never both set, and a commanded safe state is present exactly while one of
them is: from the act of fencing until the release (R177, R179, R187). -/
def fenceLaw (s : State) : Prop :=
  ∀ d : DriveNo,
    ¬((s.fence d).flag = true ∧ (s.fence d).releasePending = true) ∧
    ((s.fence d).commanded.isSome = ((s.fence d).flag || (s.fence d).releasePending))

/-- A link is OFFERING only an item that is in its set (R53). -/
def offerLaw (s : State) : Prop :=
  ∀ (l : LinkNo) (age : Nat), (s.port l).state = .offering age → ∃ i ∈ (s.present.get l).items, i.age = age

/-- A law that every step keeps. -/
def keptByStep (law : State → Prop) : Prop := ∀ s t : State, law s → step s = .next t → law t

end Sys2Proof.Machine
end

