-- ==== Sys2Proof/Certificates/Slice0/Obligations.lean ====
section
/-! DEFINITION. The statements for the provers. A result is stated as an equation `exec c s = .next t`: everything that
`t` does not mention is as it was in `s`. Where a rule hands an item to Presentation Control, `t` names its operations
`choose` (R54), `raise` (R48), `withdraw` (R60) and `goIdle`, which touch only ports, item sets and what has been sent.
Where a rule hands work on whose result depends on much of the state, `t` is `settle` of the state with that work put
off (log 3). -/

namespace Sys2Proof.Machine

/-- Between two commands: the power-on clear line is released and no internal work is left (log 3, log 10). -/
def calm (s : State) : Prop := s.clearLine = false ∧ s.work = []

/-- Between two commands, with the link IDLE. -/
def atIdle (l : LinkNo) (s : State) : Prop := calm s ∧ (s.port l).state = .idle

/-- Between two commands, with the link IDLE and holding FULL authority (R194). -/
def atFull (l : LinkNo) (s : State) : Prop := atIdle l s ∧ (s.auth.get l).full = true

/-- The link is OFFERING or CONNECTED (R61). -/
def engaged (l : LinkNo) (s : State) : Prop :=
  (∃ age, (s.port l).state = .offering age) ∨ ∃ c dir, (s.port l).state = .connected c dir

/-- The floor of a link is 0 (R59). -/
def floorZero (l : LinkNo) (s : State) : State := s.modPort l fun p => { p with floor := 0 }

/-- A management frame taken and answered (R193). -/
def answered (l : LinkNo) (code : Byte) (a : Answer) (s : State) : State := (floorZero l s).frame l (.response code a)

/-- A management frame accepted without data. -/
def accepted (l : LinkNo) (code : Byte) (s : State) : State := answered l code (.accepted []) s

/-- The items of a link's set without the one of the given age. -/
def itemsBut (l : LinkNo) (age : Nat) (s : State) : List Item := (s.present.get l).items.filter fun i => i.age != age

/-- The operand length that an operation needs (R203). -/
def operandFits (code : Nat) (operand : List Byte) : Bool :=
  match code with
  | 1 => operand.length == 8
  | 3 | 19 => operand.length == 2
  | 5 | 6 | 22 => operand.length == 0
  | 7 => operand.length == 14
  | 8 => operand.length == 9
  | 9 => operand.length == 13
  | 11 => match operand with | _ :: n :: _ => operand.length == 2 + 7 * n.toNat | _ => false
  | 13 | 15 => operand.length == 4
  | 14 => operand.length == 5
  | _ => operand.length == 1

/-- No context, relocation, buffer, suspect entry or spares-low flag of a drive, and no requester waiting for a
buffer: all that the loss of the drive has to take down is the Drive Record and the arm's own work. -/
def bare (d : DriveNo) (s : State) : Prop :=
  (∀ c x, s.ctx c = some x → x.drive ≠ d) ∧ (s.track d).reloc = none ∧ (s.track d).sparesLow = false ∧
  (∀ b, (s.buffer b).ofDrive d = false) ∧ (∀ e ∈ s.suspects, e.drive ≠ d) ∧ s.bufWait = []

/-- A drive's arm and its work gone (R13, R86, R101, R102). -/
def armCleared (d : DriveNo) (s : State) : State :=
  { (s.modSched d fun q => { q with selection := none }).setOrient d none with
    path := ⟨s.path.grant.filter fun p => p.drive != d, s.path.booking.filter fun k => k.drive != d⟩ }

/-- No work for a drive's arm: an empty Request Queue, no relocation and no Pending Policy. -/
def noWork (d : DriveNo) (s : State) : Prop :=
  (s.sched d).queue = [] ∧ (s.track d).reloc = none ∧ (s.drive d).pending = none

/-- An immediate Ending (R24). -/
def endingNow (unit : BitVec 4) (tag : Byte) (cond : Condition) (entry : Option Nat) (sense : Option SenseRecord) :
    HostFrame :=
  .status ⟨unit, some tag, .ending, some cond, entry, none, senseDetail sense⟩

/-- No live chain of the link carries the tag. -/
def tagFree (l : LinkNo) (tag : Byte) (s : State) : Prop :=
  ∀ c x, s.ctx c = some x → x.link = some l → x.tag ≠ tag

/-- A Command Frame with these entries passes checks 1 to 4 of R23. -/
def reaches5 (l : LinkNo) (d : DriveNo) (tag count : Byte) (body : List Byte) (es : List Entry) (s : State) : Prop :=
  atIdle l s ∧ readChain count body = .good es ∧ tagFree l tag s ∧ s.allowed l d = true

/-- Checks 6a to 6e of R23 find nothing. -/
def admits (l : LinkNo) (d : DriveNo) (s : State) : Prop :=
  (s.drive d).arm ≠ .notReady ∧ (s.track d).map = .loaded ∧ (s.fence d).flag = false ∧
  ((s.resv.get d).holder = none ∨ (s.resv.get d).holder = some l) ∧ driveLoad s d < 8

/-- The context of a chain right after acceptance (R27). -/
def chainOf (l : LinkNo) (d : DriveNo) (tag : Byte) (order : Nat) (es : List Entry) : Context where
  state := .waitStore .goingOn
  link := some l
  tag := tag
  drive := d
  order := order
  entries := es
  cur := 0
  home := none
  buffer := none
  failing := []
  sense := none
  stop := .none
  ending := none
  expected := []
  deliver := []
  deliverCond := none

/-- A chain has been given its context. -/
def accepts (c : CtxNo) (x : Context) (s : State) : State :=
  { s with contexts := put s.contexts c (some x), acceptCount := s.acceptCount + 1 }

/-- An EMPTY buffer is assigned (R122): its flag of forced parity stands, and it is the most recently used. -/
def assigns (b : BufNo) (d : DriveNo) (h : HomeTrack) (s : State) : State :=
  { s.modBuffer b fun r => ⟨some (d, h), [], false, .none, [], none, r.parityForce⟩ with
    lru := (s.lru.filter fun k => k != b) ++ [b] }

/-- No chain of the drive is in the flush wait (R133). -/
def noFlush (d : DriveNo) (s : State) : Prop :=
  ∀ c x, s.ctx c = some x → x.drive = d → x.state ≠ .waitStore .flush

/-- A chain on its way to its ending (steps 1 and 2 of R37): its condition is recorded and it has left the Buffer Wait
List. It counts in the drive load until it is in ENDING. -/
def leaving (c : CtxNo) (x : Context) (e : Ending) (s : State) : State :=
  { s with
    contexts := put s.contexts c (some { x with state := .waitStore .leaving, ending := some e })
    bufWait := s.bufWait.filter fun w => w.who != .context c }

/-- The ENDING of a context is raised on its link, if it still has one (R37). -/
def raisesEnding (c : CtxNo) (x : Context) (s : State) : State :=
  match x.link with
  | some l => raise l (.ending x.drive c) s
  | none => s

/-- A chain in ENDING (steps 4 and 5 of R37), with its ENDING raised: its pin is gone, and a buffer it named is the most
recently used (R120). -/
def ends (c : CtxNo) (x : Context) (e : Ending) (s : State) : State :=
  raisesEnding c x { s with
    contexts := put s.contexts c (some { x with state := .ending, ending := some e, buffer := none })
    lru := match x.buffer with | some b => (s.lru.filter fun n => n != b) ++ [b] | none => s.lru }

/-- The buffer that a chain names, if any, is pinned by another chain too. -/
def pinnedByOther (c : CtxNo) (x : Context) (s : State) : Prop :=
  ∀ b, x.buffer = some b → ∃ k y, k ≠ c ∧ s.ctx k = some y ∧ y.buffer = some b

/-- A chain's item has left its drive's Request Queue (R84). -/
def unqueued (c : CtxNo) (d : DriveNo) (s : State) : State :=
  s.modSched d fun q => { q with queue := q.queue.filter fun i => i.work != .step c }

/-- A link's port, items and place on the Context Wait List cleared (R42, R43). -/
def linkCleared (l : LinkNo) (enters : LinkState) (s : State) : State :=
  { (s.modPort l fun _ => ⟨enters, 0, none⟩).modPresent l fun p => { p with items := [] } with
    ctxWait := s.ctxWait.filter fun k => k != l }

/-- A link's reservation of one drive, or its place on the drive's wait list, is given up (R77). -/
def givesUp (l : LinkNo) (d : DriveNo) (s : State) : State :=
  if (s.resv.get d).holder = some l then
    match (s.resv.get d).waitList with
    | [] => s.modResv d fun _ => ⟨none, []⟩
    | k :: rest => raise k (.reservationGranted d) (s.modResv d fun _ => ⟨some k, rest⟩)
  else s.modResv d fun r => { r with waitList := r.waitList.filter fun k => k != l }

/-- The data of a MAP-READ or SUSPECT-READ answer (R149, R174): how many items follow, at most eight, whether they are
the last, and the items. -/
def listed (items : List (List Byte)) : List Byte :=
  [byteOf (items.take 8).length, flagByte (decide (items.length ≤ 8))] ++ (items.take 8).flatten

/-- A reservation is taken from its holder (R67, R76): RESERVATION-LOST, and the first waiter is granted the drive. -/
def takenAway (k : LinkNo) (d : DriveNo) (s : State) : State :=
  match (s.resv.get d).waitList with
  | [] => raise k (.reservationLost d) (s.modResv d fun _ => ⟨none, []⟩)
  | j :: rest =>
    raise j (.reservationGranted d)
      ((raise k (.reservationLost d) (s.modResv d fun r => { r with holder := none })).modResv d fun _ => ⟨some j, rest⟩)

/-- No MAP cursor names the drive. -/
def noMapCursor (d : DriveNo) (s : State) : Prop := ∀ l last stale, (s.port l).cursor ≠ some (.map d last stale)

/-- A link's cursor is replaced (R148). -/
def leavesCursor (l : LinkNo) (k : Option Cursor) (s : State) : State := s.modPort l fun p => { p with cursor := k }

/-- A drive is out of service (R13, R14): its Drive Record, arm, queue, map and spares are as after power-on. -/
def outOfService (d : DriveNo) (ready late : Bool) (s : State) : State :=
  { (armCleared d s).modDrive d fun r =>
      { r with ready := ready, lateAnswer := late, arm := .notReady, cyl := none, seekTarget := none,
               recalReason := none, indexSeen := false, position := none } with
    scheds := change s.scheds d fun q => { q with queue := [], selection := none }
    tracks := put s.tracks d ⟨.absent, [], [], Vector.replicate 40 .free, none, false⟩ }

/-- A recalibration starts (R8). -/
def recalibrates (d : DriveNo) (why : RecalReason) (s : State) : State :=
  (s.modDrive d fun r =>
    { r with arm := .recalibrating, cyl := none, indexSeen := false, recalReason := some why }).order d .recalibrate

/-- The selection and orientation records of a drive are gone, and a booking made for it (R86, R102, R106). -/
def unselected (d : DriveNo) (s : State) : State :=
  { (s.modSched d fun q => { q with selection := none }).setOrient d none with
    path := { s.path with booking := s.path.booking.filter fun k => k.drive != d } }

/-- A drive's pass under its grant is changed. -/
def passIs (p : Pass) (s : State) : State := { s with path := { s.path with grant := some p } }

end Sys2Proof.Machine

open Sys2Proof Sys2Proof.Machine

/-! The step, resets and the laws that every step keeps. -/

/-- The command at the front of the queue is run on the state with the queue's rest; with none waiting and no work left
the block idles (log 2). -/
def Obligations.StepRunsFrontCommand : Prop :=
  (∀ (c : Instr) (rest : List Instr) (s : State), s.pending = c :: rest → step s = exec c { s with pending := rest }) ∧
  (∀ s : State, s.pending = [] → s.work = [] → step s = .next s)

/-- Every command answers a next state. -/
def Obligations.NoCommandStops : Prop := ∀ (c : Instr) (s : State), ∃ t, exec c s = .next t

/-- The power-on clear line. Released, every record holds its power-on value (R200). The rest is the model's choice
(log 10): asserted, nothing is taken and nothing sent, every record stands as it is and only pins move; and the release
sets every record whether or not the line was asserted before. -/
def Obligations.PowerOnClearLine : Prop :=
  (∀ s : State, exec .powerOnClearAsserted s = .next { s with clearLine := true }) ∧
  (∀ (c : Instr) (s : State), s.clearLine = true → c ≠ .powerOnClear →
    ∃ t, exec c s = .next t ∧ t = { s with lineUp := t.lineUp, switches := t.switches }) ∧
  (∀ s : State, exec .powerOnClear s = .next
    { ports := Vector.ofFn fun l => ⟨if s.lineUp.get l then .idle else .down, 0, none⟩
      auth := Vector.replicate 4 ⟨false, false⟩
      lineUp := s.lineUp
      present := Vector.replicate 4 ⟨[], 0, #v[8, 12, 6, 6, 4, 3, 10, 5, 2, 2, 2, 9, 1]⟩
      contexts := Vector.replicate 16 none
      acceptCount := 0
      ctxWait := []
      paths := Vector.replicate 4 (Vector.replicate 8 true)
      resv := Vector.replicate 8 ⟨none, []⟩
      drives := Vector.replicate 8
        { ready := false, arm := .notReady, cyl := none, seekTarget := none, recalReason := none, lateAnswer := false,
          sweep := .inward, indexSeen := false, position := none, pending := none,
          policy := ⟨2, 8, 3, 3, .through, false, false, 3, 4, ⟨true, false, false, true⟩, .writeInhibit, false⟩ }
      scheds := Vector.replicate 8 ⟨[], 0, none⟩
      path := ⟨none, none⟩
      orients := Vector.replicate 8 none
      buffers := Vector.replicate 6 ⟨none, [], false, .none, [], none, false⟩
      lru := [0, 1, 2, 3, 4, 5]
      bufWait := []
      capture := none
      further := 0
      tracks := Vector.replicate 8 ⟨.absent, [], [], Vector.replicate 40 .free, none, false⟩
      suspects := []
      fences := Vector.replicate 8 ⟨false, ⟨false, false, false, false⟩, false, false, none, false⟩
      attachMemory := false
      switches := s.switches
      clearLine := false
      sent := s.sent
      work := []
      pending := s.pending })

/-- R80, R140: what power-on clear leaves in the Path Table, the Reservation Records and the Buffer Store: no link is
BARRED, no drive is held or waited for, every buffer is EMPTY, nothing waits, no capture stands; no item is raised and
nothing is sent. -/
def Obligations.PowerOnClearRecords : Prop :=
  ∀ s : State, ∃ t, exec .powerOnClear s = .next t ∧
    (∀ l d, t.allowed l d = true) ∧ (∀ d, (t.resv.get d).holder = none ∧ (t.resv.get d).waitList = []) ∧
    (∀ b, (t.buffer b).state = .empty ∧ t.buffer b = ⟨none, [], false, .none, [], none, false⟩) ∧
    t.lru = [0, 1, 2, 3, 4, 5] ∧ t.bufWait = [] ∧ (∀ d, flushWaiting t d = false) ∧ t.capture = none ∧ t.further = 0 ∧
    (∀ b, (t.buffer b).parityForce = false) ∧ (∀ l, (t.present.get l).items = []) ∧ t.sent = s.sent

/-- The laws hold right after power-on clear. -/
def Obligations.LawsHoldAtReset : Prop :=
  reservationLaw State.reset ∧ authorityLaw State.reset ∧ storeLaw State.reset ∧ lruLaw State.reset ∧
  bufferLaw State.reset ∧ fenceLaw State.reset ∧ offerLaw State.reset

/-- R69: the laws of the Reservation Records are kept by every step. -/
def Obligations.ReservationLawKept : Prop := keptByStep reservationLaw

/-- R195: a FULL link always finds Attach Memory set. -/
def Obligations.AuthorityLawKept : Prop := keptByStep authorityLaw

/-- The laws of the track buffers are kept by every step, each by itself: the canonical form of every store (log 31), the
LRU order as a list of all six buffers without duplicates (R120), and no two buffers with one drive and home track
(R122). -/
def Obligations.BufferLawsKept : Prop := keptByStep storeLaw ∧ keptByStep lruLaw ∧ keptByStep bufferLaw

/-- R177, R179, R187: fence flag, release-pending and commanded safe state stay in step. -/
def Obligations.FenceLawKept : Prop := keptByStep fenceLaw

/-- R53: the offered item is an item of the link's set. -/
def Obligations.OfferLawKept : Prop := keptByStep offerLaw

/-- What has been sent stands: a command only adds to it, the clear line's commands included (log 4). -/
def Obligations.SentStands : Prop :=
  ∀ (c : Instr) (s t : State), exec c s = .next t → ∃ more, t.sent = s.sent ++ more

/-- Frame of every command: the queue is left alone; authority changes only by ATTACH, LINK_DOWN, CONTROLLER_RESET and
power-on clear (R194); the Path Table only by PATH_WRITE and power-on clear (R65); Attach Memory only by ATTACH and
power-on clear (R195); the pins only by the commands that report them (log 6, log 7, log 10). -/
def Obligations.InstallationFrame : Prop :=
  ∀ (c : Instr) (s t : State), exec c s = .next t →
    t.pending = s.pending ∧
    (t.auth = s.auth ∨ (∃ l tag o v, c = .attach l tag o v) ∨ (∃ l, c = .linkDown l) ∨
      (∃ l tag o, c = .controllerReset l tag o) ∨ c = .powerOnClear) ∧
    (t.paths = s.paths ∨ (∃ l tag o, c = .pathWrite l tag o) ∨ c = .powerOnClear) ∧
    (t.attachMemory = s.attachMemory ∨ (∃ l tag o v, c = .attach l tag o v) ∨ c = .powerOnClear) ∧
    (t.lineUp = s.lineUp ∨ (∃ l, c = .linkDown l) ∨ ∃ l, c = .linkUp l) ∧
    (t.switches = s.switches ∨ ∃ l tag o v, c = .attach l tag o v) ∧
    (t.clearLine = s.clearLine ∨ c = .powerOnClear ∨ c = .powerOnClearAsserted)

/-! Chains and their acceptance (chapter 2, chapter 4). -/

/-- R61: a Command Frame or management frame that arrives in OFFERING or CONNECTED is answered Link Busy with its unit
and tag and changes nothing else; in DOWN no frame is received. -/
def Obligations.FrameTurnedAway : Prop :=
  ∀ (l : LinkNo) (s : State), calm s →
    (engaged l s →
      (∀ unit tag notify count body,
        exec (.commandFrame l unit tag notify count body) s = .next (s.frame l (.linkBusy unit tag))) ∧
      (∀ tag code operand, exec (managementOp l tag code operand) s = .next (s.frame l (.linkBusy 15#4 tag))) ∧
      (∀ tag why, exec (.manageInvalid l tag why) s = .next (s.frame l (.linkBusy 15#4 tag)))) ∧
    ((s.port l).state = .down →
      (∀ unit tag notify count body, exec (.commandFrame l unit tag notify count body) s = .next s) ∧
      (∀ tag code operand, exec (managementOp l tag code operand) s = .next s) ∧
      (∀ tag why, exec (.manageInvalid l tag why) s = .next s))

/-- Checks 1 to 4 of R23 in their order, each answered with an immediate Ending and the floor at 0: UNIT-INVALID for the
units 8 to 14, unit 15 being the Management Engine's (R20). The failing entry index of a FORMAT-ERROR is the one that
`readChain` finds, which in part is the model's choice (log 16). -/
def Obligations.ChainRefusedAtOnce : Prop :=
  ∀ (l : LinkNo) (s : State) (tag : Byte) (notify : Bool) (count : Byte) (body : List Byte), atIdle l s →
    (∀ unit : BitVec 4, 8 ≤ unit.toNat → unit ≠ 15#4 →
      exec (.commandFrame l unit tag notify count body) s =
        .next (choose l ((floorZero l s).frame l (endingNow unit tag .unitInvalid none none)))) ∧
    ∀ d : DriveNo,
      let answers := fun (cond : Condition) (entry : Option Nat) =>
        exec (.commandFrame l (BitVec.ofNat 4 d.val) tag notify count body) s =
          .next (choose l ((floorZero l s).frame l (endingNow (BitVec.ofNat 4 d.val) tag cond entry none)))
      (∀ entry, readChain count body = .bad entry → answers .formatError entry) ∧
      ∀ es, readChain count body = .good es →
        ((∃ c x, s.ctx c = some x ∧ x.link = some l ∧ x.tag = tag) → answers .tagInUse none) ∧
        (tagFree l tag s → s.allowed l d = false → answers .noPath none)

/-- R71, R72: a chain of one RESERVE takes an unreserved drive, completes on its own one, and otherwise ends
RESERVED-ELSEWHERE (no wait) or RESERVE-QUEUED with a place at the end of the wait list (wait). -/
def Obligations.ReserveDecides : Prop :=
  ∀ (l : LinkNo) (d : DriveNo) (tag : Byte) (notify : Bool) (count : Byte) (body : List Byte) (wait : Bool) (s : State),
    reaches5 l d tag count body [.reserve wait] s →
    let answers := fun (cond : Condition) (entry : Option Nat) (u : State) =>
      exec (.commandFrame l (BitVec.ofNat 4 d.val) tag notify count body) s =
        .next (choose l ((floorZero l u).frame l (endingNow (BitVec.ofNat 4 d.val) tag cond entry none)))
    ((s.resv.get d).holder = none →
      answers .complete none (s.modResv d fun r => { r with holder := some l })) ∧
    ((s.resv.get d).holder = some l → answers .complete none s) ∧
    (∀ h, (s.resv.get d).holder = some h → h ≠ l →
      (wait = false → answers .reservedElsewhere (some 0) s) ∧
      (wait = true → l ∈ (s.resv.get d).waitList → answers .reserveQueued (some 0) s) ∧
      (wait = true → l ∉ (s.resv.get d).waitList →
        answers .reserveQueued (some 0) (s.modResv d fun r => { r with waitList := r.waitList ++ [l] })))

/-- R74, R75, R25: a chain of one RELEASE gives up the reservation, which passes to the first waiter, or the link's
place on the wait list, or ends RELEASE-NOT-HELD; a chain of one SENSE completes with the sense record. -/
def Obligations.ReleaseAndSense : Prop :=
  ∀ (l : LinkNo) (d : DriveNo) (tag : Byte) (notify : Bool) (count : Byte) (body : List Byte) (s : State),
    let answers := fun (cond : Condition) (entry : Option Nat) (sense : Option SenseRecord) (u : State) =>
      exec (.commandFrame l (BitVec.ofNat 4 d.val) tag notify count body) s =
        .next (choose l (u.frame l (endingNow (BitVec.ofNat 4 d.val) tag cond entry sense)))
    (reaches5 l d tag count body [.release] s →
      ((s.resv.get d).holder = some l → (s.resv.get d).waitList = [] →
        answers .complete none none ((floorZero l s).modResv d fun _ => ⟨none, []⟩)) ∧
      (∀ k rest, (s.resv.get d).holder = some l → (s.resv.get d).waitList = k :: rest →
        answers .complete none none
          (raise k (.reservationGranted d) ((floorZero l s).modResv d fun _ => ⟨some k, rest⟩))) ∧
      ((s.resv.get d).holder ≠ some l → l ∈ (s.resv.get d).waitList →
        answers .complete none none
          ((floorZero l s).modResv d fun r => { r with waitList := r.waitList.filter fun k => k != l })) ∧
      ((s.resv.get d).holder ≠ some l → l ∉ (s.resv.get d).waitList →
        answers .releaseNotHeld (some 0) none (floorZero l s))) ∧
    (reaches5 l d tag count body [.sense] s →
      answers .complete none (some (senseOf s d)) (floorZero l s))

/-- Check 6 of R23, in its order, on a chain that begins with a SEEK; CONTROLLER-BUSY puts a link that asks for it on the
Context Wait List once (R26). -/
def Obligations.DriveChainChecks : Prop :=
  ∀ (l : LinkNo) (d : DriveNo) (tag : Byte) (notify : Bool) (count : Byte) (body : List Byte) (h : HomeTrack)
    (es : List Entry) (s : State), reaches5 l d tag count body (.seek h :: es) s →
    let answers := fun (cond : Condition) (u : State) =>
      exec (.commandFrame l (BitVec.ofNat 4 d.val) tag notify count body) s =
        .next (choose l ((floorZero l u).frame l (endingNow (BitVec.ofNat 4 d.val) tag cond none none)))
    ((s.drive d).arm = .notReady → answers .notReady s) ∧
    ((s.drive d).arm ≠ .notReady → (s.track d).map ≠ .loaded → answers .mapAbsent s) ∧
    ((s.drive d).arm ≠ .notReady → (s.track d).map = .loaded → (s.fence d).flag = true → answers .driveFenced s) ∧
    (∀ k, (s.drive d).arm ≠ .notReady → (s.track d).map = .loaded → (s.fence d).flag = false →
      (s.resv.get d).holder = some k → k ≠ l → answers .reservedElsewhere s) ∧
    ((s.drive d).arm ≠ .notReady → (s.track d).map = .loaded → (s.fence d).flag = false →
      ((s.resv.get d).holder = none ∨ (s.resv.get d).holder = some l) → 8 ≤ driveLoad s d → answers .queueFull s) ∧
    (admits l d s → (∀ c, s.ctx c ≠ none) →
      answers .controllerBusy
        (if notify = true ∧ l ∉ s.ctxWait then { s with ctxWait := s.ctxWait ++ [l] } else s))

/-- R23, R27: an admitted chain takes the lowest-numbered FREE context with the next acceptance order and is answered
Taken, and its first step starts. That the step starts before the link makes its next choice (R54) is the model's choice
(log 18). -/
def Obligations.DriveChainAccepted : Prop :=
  ∀ (l : LinkNo) (d : DriveNo) (tag : Byte) (notify : Bool) (count : Byte) (body : List Byte) (h : HomeTrack)
    (es : List Entry) (c : CtxNo) (s : State), reaches5 l d tag count body (.seek h :: es) s → admits l d s →
    s.ctx c = none → (∀ k, k < c → s.ctx k ≠ none) →
    exec (.commandFrame l (BitVec.ofNat 4 d.val) tag notify count body) s =
      .next (settle (((accepts c (chainOf l d tag s.acceptCount (.seek h :: es)) (floorZero l s)).frame l
        (.taken tag)).later [.startStep c, .choose l]))

/-- R29, R30, R32, R33, R83, R122: the first step of an accepted chain that is exactly SEEK and one WRITE, or SEEK and one
READ, on a track that no buffer holds, while a buffer is EMPTY: the lowest-numbered one is assigned and pinned. With the
WRITE, the context goes STAGING and a RECONNECT for the WRITE's sectors is raised; with the READ, of a track without
lost sectors and with the arm busy or FENCED, the context is QUEUED and joins the Request Queue at the newest end with
pass count 0. That the RECONNECT is raised before the link makes its next choice (R54) is the model's choice (log 18). -/
def Obligations.FirstStepStarts : Prop :=
  ∀ (l : LinkNo) (d : DriveNo) (tag : Byte) (notify : Bool) (count : Byte) (body : List Byte) (h : HomeTrack)
    (first : SectorNo) (n : Nat) (c : CtxNo) (b : BufNo) (s : State), admits l d s →
    1 ≤ n → first.val + n ≤ 16 →
    s.ctx c = none → (∀ k, k < c → s.ctx k ≠ none) → (∀ k, (s.buffer k).assigned ≠ some (d, h)) →
    (s.buffer b).assigned = none → (∀ k, k < b → (s.buffer k).assigned ≠ none) →
    let chain := chainOf l d tag s.acceptCount
    let starts := fun x : Context => assigns b d h ((accepts c x (floorZero l s)).frame l (.taken tag))
    let answers := fun u : State =>
      exec (.commandFrame l (BitVec.ofNat 4 d.val) tag notify count body) s = .next (choose l u)
    (reaches5 l d tag count body [.seek h, .write first n] s →
      answers (raise l (.reconnect d c .toController n) (starts { chain [.seek h, .write first n] with
        state := .staging, home := some h, buffer := some b, expected := sectorsFrom first n }))) ∧
    (reaches5 l d tag count body [.seek h, .read first n] s → (s.drive d).arm ≠ .idle →
      lostOf (s.track d) h = [] →
      answers ((starts { chain [.seek h, .read first n] with
        state := .queued, cur := 1, home := some h, buffer := some b }).modSched d fun q =>
          { q with queue := q.queue ++ [⟨.step c, h, q.nextRank, 0⟩], nextRank := q.nextRank + 1 }))

/-! The data of a connection, offers and their answers (chapters 2 and 3). -/

/-- R126, R30, R32, R63: the Data Frame that is expected next is stored dirty under its link's name, with bad parity if
the force flag was set, which it clears; with the last one the connection ends, the link makes its next choice and
the step's entry walk begins. Any other tag or sector is discarded. -/
def Obligations.DataFrameStored : Prop :=
  ∀ (l : LinkNo) (c : CtxNo) (x : Context) (b : BufNo) (y : SectorNo) (rest : List SectorNo) (d : DriveNo)
    (h : HomeTrack) (data : List Byte) (s : State), calm s → (s.port l).state = .connected c .toController →
    s.ctx c = some x → x.buffer = some b → x.expected = y :: rest → (s.buffer b).assigned = some (d, h) →
    noFlush d s →
    let stored := fun v : Context => noteStored b y ((s.setCtx c (some v)).modBuffer b fun r =>
      { r with cells := putCell y ⟨data, true, r.parityForce⟩ r.cells, parityForce := false, lastWriter := some l })
    let going : Context := { x with expected := [], state := .waitStore .goingOn }
    (rest ≠ [] → exec (.dataFrame l x.tag (byteOf y.val) data) s = .next (stored { x with expected := rest })) ∧
    (rest = [] → exec (.dataFrame l x.tag (byteOf y.val) data) s =
      .next (settle (((goIdle l (stored going)).setCtx c (some { going with cur := x.cur + 1 })).later [.walk c]))) ∧
    ∀ tag sector : Byte, tag ≠ x.tag ∨ sector.toNat ≠ y.val → exec (.dataFrame l tag sector data) s = .next s

/-- R61, R59, R39, R42: what the link state gives no use is disregarded. -/
def Obligations.OutOfTurnDisregarded : Prop :=
  ∀ (l : LinkNo) (s : State), calm s →
    ((∀ age, (s.port l).state ≠ .offering age) →
      exec (.accept l) s = .next s ∧ exec (.defer l) s = .next s ∧ exec (.offerTimeout l) s = .next s) ∧
    ((∀ c, (s.port l).state ≠ .connected c .toController) →
      (∀ tag sector data, exec (.dataFrame l tag sector data) s = .next s) ∧ exec (.dataTimeout l) s = .next s) ∧
    ((∀ c, (s.port l).state ≠ .connected c .toHost) → exec (.deliveryFrame l) s = .next s) ∧
    ((s.port l).state = .down →
      exec (.resume l) s = .next s ∧ (∀ tag, exec (.halt l tag) s = .next s) ∧ exec (.linkReset l) s = .next s)

/-- R201: a discarded frame has no effect. A frame is received only when its check holds: 16 bits, generator
x^16 + x^12 + x^5 + 1, from all ones, over every byte before it. -/
def Obligations.FrameCheckDecides : Prop :=
  frameCheck [49#8, 50#8, 51#8, 52#8, 53#8, 54#8, 55#8, 56#8, 57#8] = 10673#16 ∧
  (∀ body : List Byte, body ≠ [] → checked (withCheck body) = some body) ∧
  (∀ frame body : List Byte, checked frame = some body → frame = withCheck body) ∧
  (∀ (l : LinkNo) (frame : List Byte), checked frame = none → receiveFrame l frame = .frameCheckFailure l frame) ∧
  (∀ (l : LinkNo) (frame : List Byte) (s : State), calm s → exec (.frameCheckFailure l frame) s = .next s)

/-- R38, R56, R26: an accepted ending frees its context, which tells every link on the Context Wait List; an accepted
RECONNECT connects the link; an accepted notice is gone. -/
def Obligations.AcceptTakesOffer : Prop :=
  ∀ (l : LinkNo) (i : Item) (s : State), calm s → offered s l = some i →
    (∀ d c, i.body = .ending d c →
      exec (.accept l) s = .next (goIdle l (raiseOn s.ctxWait .controllerFree
        { setItems l (itemsBut l i.age s) s with contexts := put s.contexts c none, ctxWait := [] }))) ∧
    (∀ d c dir n, i.body = .reconnect d c dir n →
      exec (.accept l) s = .next (((setItems l (itemsBut l i.age s) s).modPort l fun p =>
        { p with state := .connected c dir }).modCtx c fun x => { x with state := .connected })) ∧
    ((∀ d c, i.body ≠ .ending d c) → (∀ d c dir n, i.body ≠ .reconnect d c dir n) →
      exec (.accept l) s = .next (goIdle l (setItems l (itemsBut l i.age s) s)))

/-- R57, R58, R50: a Defer and the expiry of the Offer Timeout act alike. The floor takes the item's level; the item
returns, merging a pending one of its identity, or is gone if its condition has ended; the link makes its next
choice. R59: a Resume sets the floor to 0, and an IDLE link makes its choice. -/
def Obligations.FloorMoves : Prop :=
  (∀ (l : LinkNo) (s : State), calm s → (s.port l).state ≠ .down →
    exec (.resume l) s = .next (choose l (floorZero l s))) ∧
  ∀ (l : LinkNo) (i : Item) (s : State), calm s → offered s l = some i →
    let puts := fun u : State => exec (.defer l) s = .next (goIdle l (setFloor l (levelOf s l i.body.kind) u)) ∧
      exec (.offerTimeout l) s = .next (goIdle l (setFloor l (levelOf s l i.body.kind) u))
    (i.ended = true → puts (setItems l (itemsBut l i.age s) s)) ∧
    (i.ended = false → (∀ j ∈ (s.present.get l).items, j.age ≠ i.age → j.body.same i.body = false) → puts s) ∧
    (∀ j, i.ended = false →
      ((s.present.get l).items.find? fun k => k.age != i.age && k.body.same i.body) = some j →
      puts (setItems l ((itemsBut l j.age s).map fun k =>
        if k.age = i.age then { k with body := k.body.merge j.body } else k) s))

/-- R39, R40, R41: a Halt is TOO-LATE without a live chain of its tag or with one that has ended; a second Halt is DONE
with no effect; a chain under a pass is stopped at its end. Any other chain, here one whose buffer another chain pins
too, leaves what holds it and ends HALTED at its current entry (R37): QUEUED it leaves the Request Queue; STAGING or
WAIT_LINK its RECONNECT is withdrawn; CONNECTED its link goes IDLE; in WAIT_STORE it leaves its wait; SETTLING or SEEKING
it is detached from the arm; ORIENTING, here without other work for the arm, the arm enters IDLE. -/
def Obligations.HaltAnswered : Prop :=
  ∀ (l : LinkNo) (tag : Byte) (s : State), calm s → (s.port l).state ≠ .down →
    (tagFree l tag s → exec (.halt l tag) s = .next (s.frame l (.haltAnswer tag true))) ∧
    ∀ (c : CtxNo) (x : Context), s.ctx c = some x → x.link = some l → x.tag = tag →
      (∀ k y, s.ctx k = some y → y.link = some l → y.tag = tag → k = c) →
      (x.state = .ending → exec (.halt l tag) s = .next (s.frame l (.haltAnswer tag true))) ∧
      (x.state ≠ .ending → x.stop = .halt → exec (.halt l tag) s = .next (s.frame l (.haltAnswer tag false))) ∧
      (x.state = .active → (s.drive x.drive).arm = .transferring → x.stop ≠ .halt →
        exec (.halt l tag) s = .next ((s.setCtx c (some { x with stop := .halt })).frame l (.haltAnswer tag false))) ∧
      (x.stop ≠ .halt → pinnedByOther c x s →
        let e : Ending := ⟨.halted, some x.cur, []⟩
        let left := leaving c x e (s.frame l (.haltAnswer tag false))
        let halts := fun u : State => exec (.halt l tag) s = .next (ends c x e u)
        (x.state = .queued → halts (unqueued c x.drive left)) ∧
        (x.state = .staging ∨ x.state = .waitLink → halts (withdraw l (.reconnect x.drive c .toHost 0) left)) ∧
        (∀ dir, x.state = .connected → (s.port l).state = .connected c dir →
          (∀ k way, (s.port k).state = .connected c way → k = l) → halts (goIdle l left)) ∧
        (∀ w, x.state = .waitStore w → w ≠ .leaving → halts left) ∧
        (x.state = .active → (s.drive x.drive).arm = .settling ∨ (s.drive x.drive).arm = .seeking →
          halts (left.modSched x.drive fun q =>
            { q with selection := q.selection.map fun k => { k with detached := true } })) ∧
        (x.state = .active → (s.drive x.drive).arm = .orienting → (s.drive x.drive).cyl ≠ none → noWork x.drive s →
          halts (unselected x.drive (left.setArm x.drive .idle))))

/-- R42, R43, R77, R78: Link Reset and Link Down of a link with no chains clear its port, items and place on the Context
Wait List, and give up its reservations and wait-list places drive by drive; Link Down also takes FULL authority
away. Link Up finds the set empty and the link IDLE. -/
def Obligations.LinkResetDownUp : Prop :=
  ∀ (l : LinkNo) (s : State), calm s →
    ((s.port l).state ≠ .down →
      ((∀ c x, s.ctx c = some x → x.link ≠ some l) →
        exec (.linkReset l) s = .next (each allDrives (givesUp l) (linkCleared l .idle s)) ∧
        exec (.linkDown l) s = .next (each allDrives (givesUp l)
          ((linkCleared l .down { s with lineUp := put s.lineUp l false }).modAuth l fun a =>
            { a with full := false }))) ∧
      exec (.linkUp l) s = .next { s with lineUp := put s.lineUp l true }) ∧
    ((s.port l).state = .down →
      exec (.linkDown l) s = .next { s with lineUp := put s.lineUp l false } ∧
      exec (.linkUp l) s = .next (({ s with lineUp := put s.lineUp l true }.modPort l fun _ =>
        ⟨.idle, 0, none⟩).modPresent l fun p => { p with items := [] }))

/-- R31, R37, R63: the Data Timeout ends the staging chain LINK-TIMEOUT at its first WRITE that lacks a sector: the link
goes IDLE while the chain still counts in the drive load, the pin goes, here of a buffer that another chain still pins,
and the ENDING is raised. -/
def Obligations.DataTimeoutEndsChain : Prop :=
  ∀ (l : LinkNo) (c k : CtxNo) (x y : Context) (b : BufNo) (s : State), calm s →
    (s.port l).state = .connected c .toController → (∀ j dir, (s.port j).state = .connected c dir → j = l) →
    s.ctx c = some x → x.state = .connected → x.link = some l → x.buffer = some b →
    s.ctx k = some y → k ≠ c → y.buffer = some b →
    let e : Ending := ⟨.linkTimeout, some ((firstUnfilled x).getD x.cur), []⟩
    exec (.dataTimeout l) s = .next (ends c x e (goIdle l (leaving c x e s)))

/-- R62, R150: the next Data Frame of a delivery, sector data or fill, goes out; after the last one the link goes IDLE
and the READ completes or ends with its condition. -/
def Obligations.DeliverySends : Prop :=
  ∀ (l : LinkNo) (c : CtxNo) (x : Context) (b : BufNo) (y : SectorNo) (fill : Bool) (rest : List (SectorNo × Bool))
    (bytes : List Byte) (s : State), calm s → (s.port l).state = .connected c .toHost → s.ctx c = some x →
    x.buffer = some b → x.deliver = (y, fill) :: rest →
    (if fill then bytes = List.replicate 512 0#8 else ∃ dirty, (s.buffer b).cell y = some ⟨bytes, dirty, false⟩) →
    (rest ≠ [] → exec (.deliveryFrame l) s =
      .next ((s.setCtx c (some { x with deliver := rest })).frame l (.data x.tag y bytes))) ∧
    (rest = [] →
      let u := goIdle l ((s.setCtx c (some { x with deliver := [], state := .waitStore .goingOn })).frame l
        (.data x.tag y bytes))
      (∀ cond, x.deliverCond = some cond →
        exec (.deliveryFrame l) s = .next (settle (u.later [.endChain c cond x.failing]))) ∧
      (x.deliverCond = none →
        exec (.deliveryFrame l) s = .next (settle ((u.setCtx c (some
          { x with deliver := [], state := .waitStore .goingOn, failing := [], cur := x.cur + 1 })).later [.walk c]))))

/-! Management operations (chapters 4, 7, 8, 9, 10 and 11). -/

/-- R193: an operation of code 8 to 22 from a link without FULL authority is refused with AUTHORITY; an operand block of
the wrong length, an unknown code or a frame without a single MANAGE entry (operation code 0) with RANGE. -/
def Obligations.ManagementChecks : Prop :=
  ∀ (l : LinkNo) (tag : Byte) (s : State), atIdle l s →
    (∀ code operand, 8 ≤ code.toNat → code.toNat ≤ 22 → (s.auth.get l).full = false →
      exec (managementOp l tag code operand) s = .next (choose l (answered l code (.refused .authority none) s))) ∧
    (∀ code operand, 1 ≤ code.toNat → code.toNat ≤ 22 → (8 ≤ code.toNat → (s.auth.get l).full = true) →
      operandFits code.toNat operand = false →
      exec (managementOp l tag code operand) s = .next (choose l (answered l code (.refused .range none) s))) ∧
    (∀ code operand, code.toNat < 1 ∨ 22 < code.toNat →
      exec (managementOp l tag code operand) s = .next (choose l (answered l code (.refused .range none) s))) ∧
    (∀ code, exec (.manageInvalid l tag (.unknownCode code)) s =
      .next (choose l (answered l code (.refused .range none) s))) ∧
    exec (.manageInvalid l tag .noSingleManage) s = .next (choose l (answered l 0#8 (.refused .range none) s))

/-- R195: the four decisions of an ATTACH, tested in the rule's order. Where the switches have turned since the last
ATTACH, the turn is made first (log 7). -/
def Obligations.AttachDecision : Prop :=
  ∀ (l : LinkNo) (tag : Byte) (identity : List Byte) (s : State), atIdle l s → identity.length = 8 →
    let gives := fun (u : State) => exec (.attach l tag identity none) s = .next (choose l u)
    ((s.auth.get l).locked = true → gives (answered l 1#8 (.refused .attachLocked none) s)) ∧
    ((s.auth.get l).locked = false → s.attachMemory = true →
      gives ((accepted l 1#8 s).modAuth l fun a => { a with full := true })) ∧
    ((s.auth.get l).locked = false → s.attachMemory = false → identity = s.switches.toList →
      gives { (accepted l 1#8 s).modAuth l fun a => { a with full := true } with attachMemory := true }) ∧
    ((s.auth.get l).locked = false → s.attachMemory = false → identity ≠ s.switches.toList →
      gives ((answered l 1#8 (.refused .authority none) s).modAuth l fun a => { a with locked := true })) ∧
    (∀ turned, exec (.attach l tag identity (some turned)) s =
      exec (.attach l tag identity none) { s with switches := turned })

/-- R197: STATUS-READ answers the drive number and the drive's sense record as it stands, in every arm state and
whatever the map state and the path; a drive outside 0 to 7 is refused with RANGE. -/
def Obligations.StatusRead : Prop :=
  ∀ (l : LinkNo) (tag : Byte) (s : State), atIdle l s →
    (∀ d : DriveNo, exec (.statusRead l tag [byteOf d.val]) s =
      .next (choose l (answered l 2#8 (.accepted (byteOf d.val :: (senseOf s d).bytes)) s))) ∧
    (∀ a : Byte, 8 ≤ a.toNat →
      exec (.statusRead l tag [a]) s = .next (choose l (answered l 2#8 (.refused .range none) s)))

/-- R148, R149, R174: MAP-READ answers up to eight items of the map, entries in home-track order and then retired spares,
and SUSPECT-READ up to eight suspect entries, from the start or after the cursor's item; each leaves the link's cursor
at the last. A stale cursor is refused and cleared; a map that is not LOADED is refused with STATE. -/
def Obligations.CursorReads : Prop :=
  (∀ (l : LinkNo) (tag : Byte) (d : DriveNo) (restart : Bool) (s : State), atIdle l s →
    let reads := exec (.mapRead l tag [byteOf d.val, flagByte restart]) s
    let items := mapSequence (s.track d)
    ((s.track d).map ≠ .loaded → reads = .next (choose l (answered l 3#8 (.refused .state none) s))) ∧
    ((s.track d).map = .loaded → (restart = true ∨ ∀ last stale, (s.port l).cursor = some (.map d last stale) → last = none ∧ stale = false) →
      reads = .next (choose l (leavesCursor l (some (.map d ((items.take 8).getLast?.map (·.1)) false))
        (answered l 3#8 (.accepted (listed (items.map (·.2)))) s)))) ∧
    ((s.track d).map = .loaded → restart = false →
      (∀ last, (s.port l).cursor = some (.map d last true) →
        reads = .next (choose l (leavesCursor l none (answered l 3#8 (.refused .cursorStale none) s)))) ∧
      ∀ m, (s.port l).cursor = some (.map d (some m) false) →
        let rest := items.filter fun i => m.before i.1
        reads = .next (choose l (leavesCursor l (some (.map d (((rest.take 8).getLast?.map (·.1)).or (some m)) false))
          (answered l 3#8 (.accepted (listed (rest.map (·.2)))) s))))) ∧
  ∀ (l : LinkNo) (tag : Byte) (restart : Bool) (s : State), atIdle l s →
    let reads := exec (.suspectRead l tag [flagByte restart]) s
    let lastOf := fun es : List Suspect => (es.take 8).getLast?.map fun e => (e.drive, e.home)
    ((restart = true ∨ ∀ last stale, (s.port l).cursor = some (.suspect last stale) → last = none ∧ stale = false) →
      reads = .next (choose l (leavesCursor l (some (.suspect (lastOf s.suspects) false))
        (answered l 4#8 (.accepted (listed (s.suspects.map Suspect.bytes))) s)))) ∧
    (restart = false →
      (∀ last, (s.port l).cursor = some (.suspect last true) →
        reads = .next (choose l (leavesCursor l none (answered l 4#8 (.refused .cursorStale none) s)))) ∧
      ∀ before e after, s.suspects = before ++ e :: after →
        (∀ k ∈ before, ¬(k.drive = e.drive ∧ k.home = e.home)) →
        (s.port l).cursor = some (.suspect (some (e.drive, e.home)) false) →
        reads = .next (choose l (leavesCursor l
          (some (.suspect ((lastOf after).or (some (e.drive, e.home))) false))
          (answered l 4#8 (.accepted (listed (after.map Suspect.bytes))) s))))

/-- R139, R135: BUFFER-READ answers the buffer summary and changes nothing; CAPTURE-READ answers the Error Capture Record
and the further-error count, empties the one and sets the other to 0. -/
def Obligations.BufferAndCaptureRead : Prop :=
  ∀ (l : LinkNo) (tag : Byte) (s : State), atIdle l s →
    exec (.bufferRead l tag []) s = .next (choose l (answered l 5#8 (.accepted (bufferSummary s)) s)) ∧
    exec (.captureRead l tag []) s =
      .next (choose l { answered l 6#8 (.accepted (captureBytes s)) s with capture := none, further := 0 })

/-- R196, R52: PRIORITY-WRITE, in the rule's order: a target outside CL0 to CL3 is refused with RANGE; another link's
table without FULL authority with AUTHORITY; a table that R52 forbids with RANGE. An accepted one replaces the table;
the choice of the requesting link is made with it, and that of another link at once. -/
def Obligations.PriorityWrite : Prop :=
  ∀ (l k : LinkNo) (tag : Byte) (levels : List Byte) (s : State), atIdle l s → levels.length = 13 →
    let write := exec (.priorityWrite l tag (byteOf k.val :: levels)) s
    (∀ a : Byte, 4 ≤ a.toNat →
      exec (.priorityWrite l tag (a :: levels)) s = .next (choose l (answered l 7#8 (.refused .range none) s))) ∧
    (k ≠ l → (s.auth.get l).full = false →
      write = .next (choose l (answered l 7#8 (.refused .authority none) s))) ∧
    (k = l ∨ (s.auth.get l).full = true →
      ((readLevels levels = none ↔ (∃ b ∈ levels, 16 ≤ b.toNat) ∨ levels[0]? = some 0#8 ∨ levels[1]? = some 0#8) ∧
       (readLevels levels = none → write = .next (choose l (answered l 7#8 (.refused .range none) s))) ∧
       ∀ v, readLevels levels = some v →
        let u := (accepted l 7#8 s).modPresent k fun p => { p with levels := v }
        (k = l → write = .next (choose l u)) ∧ (k ≠ l → write = .next (choose l (choose k u)))))

/-- R66, R67: PATH-WRITE answers with the row as it was and replaces it; a holder that is BARRED loses its reservation,
which passes on, and a waiting link its place. -/
def Obligations.PathWrite : Prop :=
  ∀ (l k : LinkNo) (tag : Byte) (rows : List Byte) (row : Vector Bool 8) (s : State), atFull l s →
    readRow rows = some row →
    let was := s.paths.get k
    let u := { answered l 8#8 (.accepted (was.toList.map fun a => flagByte (!a))) s with paths := put s.paths k row }
    ((∀ d, was.get d = true → row.get d = false → (s.resv.get d).holder ≠ some k ∧ k ∉ (s.resv.get d).waitList) →
      exec (.pathWrite l tag (byteOf k.val :: rows)) s = .next (choose l u)) ∧
    ∀ d, was.get d = true → row = put was d false →
      ((s.resv.get d).holder = some k →
        exec (.pathWrite l tag (byteOf k.val :: rows)) s = .next (choose l (takenAway k d u))) ∧
      ((s.resv.get d).holder ≠ some k →
        exec (.pathWrite l tag (byteOf k.val :: rows)) s = .next (choose l
          (u.modResv d fun r => { r with waitList := r.waitList.filter fun j => j != k })))

/-- R18, R19: an accepted POLICY-WRITE replaces the Fence Sources at once, and, where that neither fences the drive nor
releases its fence, leaves the rest pending while the arm is not IDLE; on an IDLE arm the whole policy is current at
once, here with the Spare Low Mark as it was and the Write Mode not turned from DEFERRED to THROUGH. That such a policy
makes no evaluation of SPARES-LOW (R152) is read from R19 (log 35, DEDUCED). -/
def Obligations.PolicyWrite : Prop :=
  ∀ (l : LinkNo) (d : DriveNo) (tag : Byte) (fields : List Byte) (p : Policy) (s : State), atFull l s →
    fields.length = 12 → readPolicy fields = some p →
    ((s.fence d).flag = true →
      (s.policy d).autoRelease = false ∨ (s.fence d).causes.meets p.fenceSources = true ∨ (s.fence d).forced = true) →
    ((s.fence d).flag = false →
      (s.fence d).causes.meets p.fenceSources = false ∧ (s.fence d).forced = false) →
    ((s.drive d).arm ≠ .idle →
      exec (.policyWrite l tag (byteOf d.val :: fields)) s =
        .next (choose l ((accepted l 9#8 s).modDrive d fun r =>
          { r with policy := { r.policy with fenceSources := p.fenceSources }, pending := some p }))) ∧
    ((s.drive d).arm = .idle → p.spareLowMark = (s.policy d).spareLowMark →
      ¬(p.writeMode = .through ∧ (s.policy d).writeMode = .deferred) →
      exec (.policyWrite l tag (byteOf d.val :: fields)) s =
        .next (choose l ((accepted l 9#8 s).modDrive d fun r => { r with policy := p, pending := none })))

/-- R145: MAP-BEGIN of a drive with no live chain, relocation or buffer starts a new, empty map in LOADING; it is refused
with STATE in NOT_READY and MAP-BUSY while the drive is in use. -/
def Obligations.MapBegin : Prop :=
  ∀ (l : LinkNo) (d : DriveNo) (tag : Byte) (s : State), atFull l s →
    let begins := exec (.mapBegin l tag [byteOf d.val]) s
    ((s.drive d).arm = .notReady → begins = .next (choose l (answered l 10#8 (.refused .state none) s))) ∧
    ((s.drive d).arm ≠ .notReady →
      (0 < driveLoad s d ∨ (s.track d).reloc ≠ none ∨
        ∃ b, (s.buffer b).ofDrive d = true ∧ ((s.buffer b).state = .dirty ∨ (s.buffer b).state = .destaging)) →
      begins = .next (choose l (answered l 10#8 (.refused .mapBusy none) s))) ∧
    ((s.drive d).arm ≠ .notReady → driveLoad s d = 0 → (s.track d).reloc = none →
      (∀ b, (s.buffer b).ofDrive d = false) → (∀ e ∈ s.suspects, e.drive ≠ d) → (s.track d).sparesLow = false →
      noMapCursor d s → s.bufWait = [] →
      begins = .next (choose l ((accepted l 10#8 s).modTracks d fun t =>
        { t with map := .loading, entries := [], retired := [], pool := Vector.replicate 40 .free })))

/-- R146: one item of a MAP-LOAD joins the loading map: an entry in home-track order, or a retired spare; an item whose
home track or spare is out of range or already named is refused with LOAD-ERROR at its number.
R147: MAP-COMMIT makes the map LOADED and sets every spare IN-USE, RETIRED or FREE by it, here with enough FREE ones;
it is refused with STATE where no map is loading. -/
def Obligations.MapLoadCommit : Prop :=
  (∀ (l : LinkNo) (d : DriveNo) (tag hi lo head spare m1 m0 : Byte) (s : State), atFull l s →
    let t := s.track d
    let entry := exec (.mapLoad l tag [byteOf d.val, 1#8, 0#8, hi, lo, head, spare, m1, m0]) s
    let retired := exec (.mapLoad l tag [byteOf d.val, 1#8, 1#8, hi, lo, head, spare, m1, m0]) s
    let error := Host.Outcome.next (choose l (answered l 11#8 (.refused .loadError (some 0)) s))
    (t.map ≠ .loading →
      entry = .next (choose l (answered l 11#8 (.refused .state none) s)) ∧
      retired = .next (choose l (answered l 11#8 (.refused .state none) s))) ∧
    (t.map = .loading →
      (readHome hi lo head = none ∨ 40 ≤ spare.toNat → entry = error) ∧ (40 ≤ spare.toNat → retired = error) ∧
      ∀ i : SpareNo, spare = byteOf i.val →
        let named := i ∈ t.entries.map (·.spare) ∨ i ∈ t.retired
        (named → entry = error ∧ retired = error) ∧
        (¬named → retired = .next (choose l ((accepted l 11#8 s).modTracks d fun k =>
          { k with retired := k.retired ++ [i] }))) ∧
        ∀ h, readHome hi lo head = some h →
          (h ∈ t.entries.map (·.home) → entry = error) ∧
          (¬named → h ∉ t.entries.map (·.home) →
            entry = .next (choose l ((accepted l 11#8 s).modTracks d fun k =>
              { k with entries := putEntry ⟨h, i, ofMask (twoBytes m1 m0)⟩ k.entries }))))) ∧
  ∀ (l : LinkNo) (d : DriveNo) (tag : Byte) (s : State), atFull l s →
    let pool : Vector SpareState 40 := Vector.ofFn fun i =>
      if i ∈ (s.track d).entries.map (·.spare) then .inUse else if i ∈ (s.track d).retired then .retired else .free
    ((s.track d).map ≠ .loading → exec (.mapCommit l tag [byteOf d.val]) s =
      .next (choose l (answered l 12#8 (.refused .state none) s))) ∧
    ((s.track d).map = .loading → (s.track d).sparesLow = false → noMapCursor d s →
      (s.policy d).spareLowMark < spareCount { s.track d with pool := pool } .free →
      exec (.mapCommit l tag [byteOf d.val]) s =
        .next (choose l ((accepted l 12#8 s).modTracks d fun t =>
          { t with pool := pool, retired := [], map := .loaded })))

/-- R155, R154, R156: an accepted RELOCATE creates the Relocation Record of a track; with an EMPTY buffer and none for
the track, the buffer is assigned and pinned and READ_OLD is entered, to be served when the arm is free. It is
refused with STATE or RELOCATE-BUSY. That the link's choice (R54) comes before the relocation is created is the model's
choice (log 18), and the record's last field, the mark `afresh`, is the model's own (log 43, DEDUCED). -/
def Obligations.RelocateCreates : Prop :=
  ∀ (l : LinkNo) (d : DriveNo) (tag hi lo head : Byte) (h : HomeTrack) (s : State), atFull l s →
    readHome hi lo head = some h →
    let starts := exec (.relocate l tag [byteOf d.val, hi, lo, head]) s
    ((s.track d).map ≠ .loaded → starts = .next (choose l (answered l 13#8 (.refused .state none) s))) ∧
    ((s.track d).map = .loaded → (s.track d).reloc ≠ none →
      starts = .next (choose l (answered l 13#8 (.refused .relocateBusy none) s))) ∧
    ∀ b : BufNo, (s.track d).map = .loaded → (s.track d).reloc = none → (∃ i, (s.track d).pool.get i = .free) →
      (∀ k, (s.buffer k).assigned ≠ some (d, h)) → (s.buffer b).assigned = none →
      (∀ k, k < b → (s.buffer k).assigned ≠ none) → (∀ c x, s.ctx c = some x → x.buffer ≠ some b) →
      (s.drive d).arm ≠ .idle →
      starts = .next ((assigns b d h (choose l (accepted l 13#8 s))).modBuffer b (fun r =>
        { r with relocPin := true }) |>.modTracks d fun t =>
          { t with reloc := some ⟨h, translate t h, none, .readOld, some b, lostOf t h, false⟩ })

/-- R172, R169, R173: SUSPECT-PLACE adds an entry at the end of the list, and advises sparing where its count is at the
threshold and Auto Spare is OFF; SUSPECT-REMOVE removes an entry and makes SUSPECT cursors stale. That the link's choice
(R54) comes before the threshold test is the model's choice (log 18). -/
def Obligations.SuspectPlaceRemove : Prop :=
  ∀ (l : LinkNo) (d : DriveNo) (tag hi lo head count : Byte) (h : HomeTrack) (s : State), atFull l s →
    readHome hi lo head = some h →
    let place := exec (.suspectPlace l tag [byteOf d.val, hi, lo, head, count]) s
    let remove := exec (.suspectRemove l tag [byteOf d.val, hi, lo, head]) s
    let found := ∃ e ∈ s.suspects, e.drive = d ∧ e.home = h
    let placed := choose l { accepted l 14#8 s with suspects := s.suspects ++ [⟨d, h, count.toNat, .placed, false, false⟩] }
    (15 < count.toNat → place = .next (choose l (answered l 14#8 (.refused .range none) s))) ∧
    (count.toNat ≤ 15 → ((s.track d).map ≠ .loaded ∨ found ∨ 16 ≤ s.suspects.length) →
      place = .next (choose l (answered l 14#8 (.refused .state none) s))) ∧
    (count.toNat ≤ 15 → (s.track d).map = .loaded → ¬found → s.suspects.length < 16 →
      (count.toNat < (s.policy d).spareThreshold → place = .next placed) ∧
      ((s.policy d).spareThreshold ≤ count.toNat → (s.policy d).autoSpare = false →
        place = .next (raiseDrive d (.spareAdvised d h) placed))) ∧
    (¬found → remove = .next (choose l (answered l 15#8 (.refused .state none) s))) ∧
    (found → remove = .next (choose l (staleSuspectCursors { accepted l 15#8 s with
      suspects := s.suspects.filter fun e => !(e.drive == d && e.home == h) })))

/-- R180, R179, R182: FENCE-FORCE makes FORCED present. A fenced drive stays so; a releasing one is fenced again without
an act of fencing; a NOT_READY one is fenced with DRIVE-FENCED; an IDLE arm, with nothing selected, also enters FENCED
and SAFE-STATE goes out. That the link's choice (R54) comes before the fence test is the model's choice (log 18), and the
mark `safeSent` is the model's own (log 36). -/
def Obligations.FenceForce : Prop :=
  ∀ (l : LinkNo) (d : DriveNo) (tag : Byte) (s : State), atFull l s →
    let force := exec (.fenceForce l tag [byteOf d.val]) s
    let u := choose l ((accepted l 16#8 s).modFence d fun f => { f with forced := true })
    let safe := (s.policy d).safeState
    ((s.fence d).flag = true → force = .next u) ∧
    ((s.fence d).flag = false → (s.fence d).releasePending = true →
      force = .next (u.modFence d fun f => { f with flag := true, releasePending := false })) ∧
    ((s.fence d).flag = false → (s.fence d).releasePending = false → (s.drive d).arm = .notReady →
      (s.sched d).selection = none → (s.track d).reloc = none →
      force = .next (raiseDrive d (.driveFenced d) (u.modFence d fun f =>
        { f with flag := true, commanded := some safe, safeSent := false }))) ∧
    ((s.fence d).flag = false → (s.fence d).releasePending = false → (s.drive d).arm = .idle →
      (s.sched d).selection = none → (s.track d).reloc = none →
      force = .next (raiseDrive d (.driveFenced d) (((armCleared d (u.modFence d fun f =>
        { f with flag := true, commanded := some safe, safeSent := true })).setArm d .fenced).order d
          (.safeState safe))))

/-- R188: the answers of FENCE-CLEAR, tested in the rule's order; an accepted one removes FORCED, clears the fence flag
and sets release-pending, and a refused one changes nothing. -/
def Obligations.FenceClear : Prop :=
  ∀ (l : LinkNo) (tag : Byte) (s : State), atIdle l s →
    ((s.auth.get l).full = false → ∀ a, exec (.fenceClear l tag [a]) s =
      .next (choose l (answered l 17#8 (.refused .authority none) s))) ∧
    ((s.auth.get l).full = true →
      (∀ a : Byte, 8 ≤ a.toNat → exec (.fenceClear l tag [a]) s =
        .next (choose l (answered l 17#8 (.refused .range none) s))) ∧
      ∀ d : DriveNo,
        let clear := exec (.fenceClear l tag [byteOf d.val]) s
        let present := (s.fence d).causes.meets (s.policy d).fenceSources
        ((s.fence d).flag = false → clear = .next (choose l (answered l 17#8 (.refused .state none) s))) ∧
        ((s.fence d).flag = true → present = true →
          clear = .next (choose l (answered l 17#8 (.refused .fenceCausePresent none) s))) ∧
        ((s.fence d).flag = true → present = false →
          clear = .next (choose l ((accepted l 17#8 s).modFence d fun f =>
            { f with forced := false, flag := false, releasePending := true }))))

/-- R191, R37: FENCE-PURGE of a fenced drive ends its held chain, QUEUED or in the flush wait, DRIVE-FENCED at its current
entry, here the only held one and with a buffer that another chain pins too; with none held it changes nothing; without
the fence flag it is refused with STATE. That the link's choice (R54) comes before the ending is the model's choice
(log 18). -/
def Obligations.FencePurge : Prop :=
  ∀ (l : LinkNo) (d : DriveNo) (tag : Byte) (s : State), atFull l s →
    let purges := exec (.fencePurge l tag [byteOf d.val]) s
    let taken := choose l (accepted l 18#8 s)
    let held := fun y : Context => y.state = .queued ∨ y.state = .waitStore .flush
    ((s.fence d).flag = false → purges = .next (choose l (answered l 18#8 (.refused .state none) s))) ∧
    ((s.fence d).flag = true → (∀ c x, s.ctx c = some x → x.drive = d → ¬held x) → purges = .next taken) ∧
    ∀ c x, (s.fence d).flag = true → s.ctx c = some x → x.drive = d → pinnedByOther c x s →
      (∀ k y, s.ctx k = some y → y.drive = d → held y → k = c) →
      let e : Ending := ⟨.driveFenced, some x.cur, []⟩
      (x.state = .queued → purges = .next (ends c x e (unqueued c d (leaving c x e taken)))) ∧
      (x.state = .waitStore .flush → purges = .next (ends c x e (leaving c x e taken)))

/-- R76, R75: FORCE-RELEASE takes the drive from the link that holds it, which is told, and hands it to the first waiter,
which is told; it is refused with STATE where the named link does not hold the drive. -/
def Obligations.ForceRelease : Prop :=
  ∀ (l k : LinkNo) (d : DriveNo) (tag : Byte) (s : State), atFull l s →
    ((s.resv.get d).holder = some k → exec (.forceRelease l tag [byteOf d.val, byteOf k.val]) s =
      .next (choose l (takenAway k d (accepted l 19#8 s)))) ∧
    ((s.resv.get d).holder ≠ some k → exec (.forceRelease l tag [byteOf d.val, byteOf k.val]) s =
      .next (choose l (answered l 19#8 (.refused .state none) s)))

/-- R138, R137, R136: BUFFER-DISCARD empties an unpinned buffer, with BUFFER-DATA-LOST for its dirty sectors, and is
refused with STATE for a pinned or DESTAGING one; PARITY-FORCE sets a buffer's parity-force flag. R123: the waiter on the
Buffer Wait List, here the only one, is assigned the buffer and goes on. R133: a chain in the flush wait, here the only
one, completes its FLUSH when the last DIRTY buffer of its drive goes, its QUEUED destage with it. -/
def Obligations.BufferDiscardParityForce : Prop :=
  ∀ (l : LinkNo) (b : BufNo) (tag : Byte) (s : State), atFull l s →
    let discards := exec (.bufferDiscard l tag [byteOf b.val]) s
    (pinned s b = true ∨ (s.buffer b).state = .destaging →
      discards = .next (choose l (answered l 20#8 (.refused .state none) s))) ∧
    (pinned s b = false → (s.buffer b).state = .empty → discards = .next (choose l (accepted l 20#8 s))) ∧
    (∀ d h, pinned s b = false → (s.buffer b).assigned = some (d, h) → (s.buffer b).destage = .none →
      s.bufWait = [] → noFlush d s →
      let empties := fun u : State => u.modBuffer b fun r => ⟨none, [], false, .none, [], none, r.parityForce⟩
      ((s.buffer b).dirty = [] → discards = .next (choose l (empties (accepted l 20#8 s)))) ∧
      ((s.buffer b).dirty ≠ [] → discards = .next (choose l (empties
        (raiseOn (lossLinks s (s.buffer b).lastWriter d) (.bufferDataLost d h (s.buffer b).dirty)
          (accepted l 20#8 s)))))) ∧
    (∀ d h, pinned s b = false → (s.buffer b).assigned = some (d, h) → (s.buffer b).dirty ≠ [] →
      let lost := raiseOn (lossLinks s (s.buffer b).lastWriter d) (.bufferDataLost d h (s.buffer b).dirty)
        (accepted l 20#8 s)
      (∀ c x e k, (s.buffer b).destage = .none → noFlush d s → s.bufWait = [⟨.context c, e, k⟩] → s.ctx c = some x →
        (∀ n, (s.buffer n).assigned ≠ some (e, k)) → (∀ n, n < b → (s.buffer n).assigned ≠ none) →
        discards = .next (settle ((({ assigns b e k lost with bufWait := [] }).setCtx c (some { x with
          buffer := some b, state := .waitStore .goingOn })).later [.assigned c, .choose l]))) ∧
      (∀ c x, (s.buffer b).destage = .queued → s.bufWait = [] → s.ctx c = some x → x.drive = d →
        x.state = .waitStore .flush →
        (∀ k y, s.ctx k = some y → y.drive = d → y.state = .waitStore .flush → k = c) →
        (∀ n, n ≠ b → (s.buffer n).ofDrive d = true →
          (s.buffer n).state ≠ .dirty ∧ (s.buffer n).state ≠ .destaging) →
        discards = .next (settle (((((lost.modBuffer b fun r =>
          ⟨none, [], false, .none, [], none, r.parityForce⟩).modSched d fun q =>
          { q with queue := q.queue.filter fun i => i.work != .destage b }).setCtx c (some { x with
          state := .waitStore .goingOn, cur := x.cur + 1 }))).later [.walk c, .choose l])))) ∧
    exec (.parityForce l tag [byteOf b.val]) s =
      .next (choose l ((accepted l 21#8 s).modBuffer b fun r => { r with parityForce := true }))

/-- R199 and the owning blocks' rules: an accepted CONTROLLER-RESET with every drive NOT_READY and every buffer EMPTY
frees every context without an ending, clears items, waits, reservations, spare-due marks and cursors, and takes
every link back to READ; the Path Table, Attach Memory, policies, maps, fences, the Error Capture Record and the
parity-force flags stay. -/
def Obligations.ControllerResetQuiet : Prop :=
  ∀ (l : LinkNo) (tag : Byte) (s : State), atFull l s →
    (∀ d, (s.drive d).arm = .notReady ∧ (s.sched d).selection = none ∧ (s.sched d).queue = [] ∧
      (s.track d).reloc = none) →
    (∀ b, (s.buffer b).assigned = none) → s.path = ⟨none, none⟩ →
    exec (.controllerReset l tag []) s = .next
      { (accepted l 22#8 s) with
        ports := (accepted l 22#8 s).ports.map fun p => if p.state = .down then p else ⟨.idle, 0, none⟩
        auth := Vector.replicate 4 ⟨false, false⟩
        present := s.present.map fun p => { p with items := [] }
        contexts := Vector.replicate 16 none
        ctxWait := []
        resv := Vector.replicate 8 ⟨none, []⟩
        bufWait := []
        suspects := s.suspects.map fun e => { e with spareDue := false } }

/-! The drives and their arms (chapters 1, 5, 6, 7 and 10). -/

/-- R7, R8: a READY that finds the arm NOT_READY starts the drive coming ready, unless a late answer is awaited (R9,
log 11); else it sets the ready flag. A good RECAL-DONE puts the arm at cylinder 0; the first INDEX after it takes the
arm, with no fence and no work, to IDLE, and raises DRIVE-READY for a recalibration that brought the drive ready. -/
def Obligations.DriveComesReady : Prop :=
  (∀ (d : DriveNo) (s : State), calm s →
    ((s.drive d).arm = .notReady → (s.drive d).lateAnswer = false →
      exec (.ready d) s = .next (recalibrates d .comingReady (s.modDrive d fun r => { r with ready := true }))) ∧
    ((s.drive d).arm ≠ .notReady ∨ (s.drive d).lateAnswer = true →
      exec (.ready d) s = .next (s.modDrive d fun r => { r with ready := true }))) ∧
  ∀ (d : DriveNo) (s : State), calm s → (s.drive d).arm = .recalibrating →
    ((s.drive d).cyl = none →
      exec (.recalDone d true) s = .next (s.modDrive d fun r => { r with cyl := some 0, indexSeen := false })) ∧
    (∀ cyl, (s.drive d).cyl = some cyl → (s.fence d).flag = false → (s.fence d).releasePending = false → noWork d s →
      let u := unselected d (s.modDrive d fun r =>
        { r with arm := .idle, recalReason := none, indexSeen := true, position := none })
      ((s.drive d).recalReason = some .comingReady →
        exec (.index d) s = .next (raiseDrive d (.driveReady d) u)) ∧
      ((s.drive d).recalReason ≠ some .comingReady → exec (.index d) s = .next u))

/-- R13, R14, R9: NOT-READY takes a drive without chains, relocation, buffers or suspect entries out of service, and a
failed or unanswered recalibration does the same but keeps the ready flag, the latter awaiting the late answer. -/
def Obligations.DriveLost : Prop :=
  ∀ (d : DriveNo) (s : State), calm s →
    ((s.drive d).arm = .notReady →
      exec (.notReady d) s = .next (s.modDrive d fun r => { r with ready := false, lateAnswer := false })) ∧
    ((s.drive d).arm ≠ .notReady → bare d s → exec (.notReady d) s = .next (outOfService d false false s)) ∧
    ((s.drive d).arm = .recalibrating → (s.drive d).cyl = none → bare d s →
      exec (.recalDone d false) s = .next (outOfService d (s.drive d).ready (s.drive d).lateAnswer s) ∧
      exec (.recalibrateTimeout d) s = .next (outOfService d (s.drive d).ready true s)) ∧
    (¬((s.drive d).arm = .recalibrating ∧ (s.drive d).cyl = none) →
      exec (.recalibrateTimeout d) s = .next s ∧
      ∀ good, exec (.recalDone d good) s = .next (s.modDrive d fun r => { r with lateAnswer := false }))

/-- R5: where the arm does nothing else with them, INDEX and SECTOR only keep the rotational position; a SECTOR after
sector 15 loses it, and before an INDEX a SECTOR is not numbered and leaves the position, 15 included, as it stands (log
41). An arm in NOT_READY takes no position. -/
def Obligations.RotationalPosition : Prop :=
  ∀ (d : DriveNo) (s : State), calm s →
    ((s.drive d).arm = .idle ∨ (s.drive d).arm = .seeking →
      exec (.index d) s = .next (s.modDrive d fun r => { r with indexSeen := true, position := none }) ∧
      ((s.drive d).indexSeen = false → exec (.sector d) s = .next s) ∧
      ((s.drive d).indexSeen = true → (s.drive d).position = none →
        exec (.sector d) s = .next (s.modDrive d fun r => { r with position := some 0 })) ∧
      (∀ n : SectorNo, (s.drive d).indexSeen = true → (s.drive d).position = some n → n.val < 15 →
        exec (.sector d) s = .next (s.modDrive d fun r => { r with position := some (n + 1) })) ∧
      ((s.drive d).indexSeen = true → (s.drive d).position = some 15 →
        exec (.sector d) s = .next (s.modDrive d fun r => { r with indexSeen := false, position := none }))) ∧
    ((s.drive d).arm = .notReady → exec (.sector d) s = .next s) ∧
    ((s.drive d).arm = .notReady → (s.drive d).ready = false → exec (.index d) s = .next s)

/-- R11, R12, R15, R37: the end of a seek. Under a fence a good one gives the cylinder and a failed one loses it. For an
arm that serves nothing, a good one leads to IDLE and a failed one to a recalibration. For a chain, a good one starts the
entry walk, and a failed one starts the recalibration and ends the chain SEEK-CHECK at its SEEK entry, here with a buffer
that another chain pins too. Without a seek in flight there is no effect. That the selection record goes at once with a
failed seek is read from R12 (log 34, DEDUCED). -/
def Obligations.SeekOutcome : Prop :=
  (∀ (d : DriveNo) (s : State), calm s →
    ((s.drive d).seekTarget = none ∨ ((s.drive d).arm ≠ .seeking ∧ (s.drive d).arm ≠ .fenced) →
      exec (.seekTimeout d) s = .next s ∧ ∀ good, exec (.seekDone d good) s = .next s) ∧
    ∀ cyl, (s.drive d).seekTarget = some cyl →
      ((s.drive d).arm = .fenced →
        let lost := s.modDrive d fun r => { r with cyl := none, seekTarget := none }
        exec (.seekDone d true) s = .next (s.modDrive d fun r => { r with cyl := some cyl, seekTarget := none }) ∧
        exec (.seekDone d false) s = .next lost ∧ exec (.seekTimeout d) s = .next lost) ∧
      (∀ k, (s.drive d).arm = .seeking → (s.sched d).selection = some k → k.detached = true →
        let failed := recalibrates d .seekCheck (unselected d (s.modDrive d fun r => { r with seekTarget := none }))
        exec (.seekDone d false) s = .next failed ∧ exec (.seekTimeout d) s = .next failed ∧
        (noWork d s → exec (.seekDone d true) s = .next (unselected d (s.modDrive d fun r =>
          { r with arm := .idle, cyl := some cyl, seekTarget := none })))) ∧
      (∀ k c, (s.drive d).arm = .seeking → (s.sched d).selection = some k → k.detached = false → k.work = .step c →
        exec (.seekDone d true) s = .next (settle ((s.modDrive d fun r =>
          { r with cyl := some cyl, seekTarget := none }).later [.walk c])))) ∧
  ∀ (d : DriveNo) (cyl : Fin 604) (k : Selection) (c : CtxNo) (x : Context) (s : State), calm s →
    (s.drive d).arm = .seeking → (s.drive d).seekTarget = some cyl → (s.sched d).selection = some k →
    k.detached = false → k.work = .step c → s.ctx c = some x → x.state = .active → pinnedByOther c x s →
    let e : Ending := ⟨.seekCheck, some (seekIndex x), []⟩
    let u := recalibrates d .seekCheck (unselected d (s.modDrive d fun r => { r with seekTarget := none }))
    exec (.seekTimeout d) s = .next (ends c x e (leaving c x e u)) ∧
    exec (.seekDone d false) s = .next (ends c x e (leaving c x e u))

/-- R92, R10: each SECTOR counts towards a settle; the one that ends it turns the sweep on a reversal and starts the seek
to another cylinder. SETTLE_END is that SECTOR, and no effect before it (log 8). -/
def Obligations.SettleEnds : Prop :=
  ∀ (d : DriveNo) (k : Selection) (s : State), calm s → (s.drive d).arm = .settling →
    (s.sched d).selection = some k →
    let t := s.modDrive d advancePosition
    (1 < k.settle →
      exec (.sector d) s = .next (t.modSched d fun q => { q with selection := some { k with settle := k.settle - 1 } }) ∧
      exec (.settleEnd d) s = .next s) ∧
    (k.settle ≤ 1 → (s.drive d).cyl ≠ some k.phys.cyl →
      let u := ((t.modSched d fun q =>
        { q with selection := some { k with reversal := false, settle := 0 } }).modDrive d fun r =>
          { r with sweep := if k.reversal then r.sweep.flip else r.sweep, arm := .seeking,
                   seekTarget := some k.phys.cyl }).order d (.seek k.phys.cyl)
      exec (.sector d) s = .next u ∧ exec (.settleEnd d) s = .next u)

/-- R103, R104, R108: a claim, when the target sector of an orienting drive arrives. A FREE path, or one booked for this
drive, is granted and its pass begins, a write pass with
the data of its first sector; else it is a miss, which books the path at the Miss Limit if nobody has. -/
def Obligations.ClaimDecided : Prop :=
  ∀ (d : DriveNo) (o : Orient) (k : Selection) (x : SectorNo) (s : State), calm s →
    (s.drive d).arm = .orienting → s.orients.get d = some o → (s.sched d).selection = some k → o.first = x →
    (advancePosition (s.drive d)).indexSeen = true → (advancePosition (s.drive d)).position = some x →
    let t := s.modDrive d advancePosition
    let free := s.path.grant = none ∧ (s.path.booking = none ∨ ∃ w, s.path.booking = some ⟨d, w⟩)
    let missed := t.setOrient d (some { o with miss := if o.miss < 15 then o.miss + 1 else o.miss })
    (free → o.dir = .read →
      exec (.sector d) s = .next (({ t.setArm d .transferring with
        path := ⟨some ⟨d, o.work, .read, o.buffer, o.home, o.first, o.last, 1, 0, 0, [], [], [], false⟩, none⟩ }).order d
          (.readPass k.phys.head o.first o.last))) ∧
    (∀ data dirty, free → o.dir = .write → o.first ≤ o.last → (∀ p, o.work ≠ .relocation p) →
      (s.fence d).causes.writeFault = false → (s.buffer o.buffer).assigned = some (d, o.home) →
      (s.buffer o.buffer).cell o.first = some ⟨data, dirty, false⟩ →
      exec (.sector d) s = .next ((({ t.setArm d .transferring with
        path := ⟨some ⟨d, o.work, .write, o.buffer, o.home, o.first, o.last, 1, 0, 0, [], [], [], false⟩, none⟩ }).order
          d (.writePass k.phys.head o.first o.last)).order d (.writeData o.first data))) ∧
    (¬free → (if o.miss < 15 then o.miss + 1 else o.miss) < (s.policy d).missLimit ∨ s.path.booking ≠ none →
      exec (.sector d) s = .next missed) ∧
    (¬free → (s.policy d).missLimit ≤ (if o.miss < 15 then o.miss + 1 else o.miss) → s.path.booking = none →
      exec (.sector d) s = .next { missed with path := ⟨s.path.grant, some ⟨d, o.work⟩⟩ })

/-- R110, R113, R151: the result of a sector that is not the pass's last. A good read of a needed sector is stored clean,
unless OFF-TRACK is present; WRITTEN makes a destage's sector clean and takes it off its track's lost list. A
result of the other kind, or for a sector already closed, has no effect (log 9, log 30). -/
def Obligations.SectorResultTaken : Prop :=
  ∀ (d : DriveNo) (p : Pass) (o : Orient) (s : State), calm s →
    (s.drive d).arm = .transferring → s.path.grant = some p → p.drive = d → s.orients.get d = some o →
    p.dropped = false → p.closed ≤ p.taken → p.taken < p.begun → p.taken + 1 < p.length →
    (s.buffer p.buffer).assigned = some (d, p.home) →
    let x := p.sector p.taken
    let u := passIs { p with taken := p.taken + 1 } s
    (∀ c data, p.work = .step c → p.dir = .read → x ∈ o.needed → (s.buffer p.buffer).holdsDirty x = false →
      (s.fence d).causes.offTrack = false →
      exec (.sectorResult d x (.good data)) s =
        .next ((u.setOrient d (some { o with needed := o.needed.filter fun y => y != x })).modBuffer p.buffer fun r =>
          { r with cells := putCell x ⟨data, false, r.parityForce⟩ r.cells, parityForce := false })) ∧
    (∀ c, p.work = .step c → p.dir = .read → (s.buffer p.buffer).holdsDirty x = false →
      exec (.sectorResult d x .uncorrectable) s = .next u) ∧
    (∀ b, p.work = .destage b → p.dir = .write → p.buffer = b → (s.buffer b).destage = .running →
      x ∉ p.withheld → x ∉ p.stored →
      exec (.sectorResult d x .written) s =
        .next ((u.modBuffer b fun r => { r with cells := cleanCell x r.cells }).modTracks d fun t =>
          { t with entries := t.entries.map fun e =>
            if e.home = p.home then { e with lost := e.lost.filter fun y => y != x } else e })) ∧
    (∀ sec r, sec.val < p.first.val + p.closed ∨ p.fits r = false → exec (.sectorResult d sec r) s = .next s)

/-- R109, R111, R128, R131, R151, R157, R158, R159, R160, R161: the event that ends a pass; the grant ends with it. A read pass of a chain
with sectors still needed and retries left: the drive orients for them. The last pass of a destage, here of an unpinned
buffer and with nothing else to do: its buffer is CLEAN, and EMPTY under Retain OFF, and the arm enters IDLE. A READ_OLD
pass, into a CLEAN buffer, that reads the last needed sector: the lowest-numbered FREE spare is allocated for WRITE_NEW.
The WRITE_NEW pass, with no queue item before the relocation: VERIFY follows on the spare's cylinder. A VERIFY pass into a
CLEAN buffer: with no sector noted, and a chain that pins the buffer, COMMIT sets the map entry and the pool and removes
the record, and the suspect entry, the notices and the arm follow; with its last sector uncorrectable, the spare is retired
and the next FREE one allocated for WRITE_NEW. PASS_END is that event, and none where the event would not end the pass
(log 8). -/
def Obligations.PassEndRetries : Prop :=
  ∀ (d : DriveNo) (e : PassCloser) (s : State), calm s →
    (endsPass s d e = false → exec (.passEnd d e) s = .next s) ∧
    (∀ (p : Pass) (o : Orient) (c : CtxNo) (x : Context), (s.drive d).arm = .transferring → s.path.grant = some p →
      p.drive = d → s.orients.get d = some o → p.dropped = false → p.work = .step c → p.dir = .read →
      s.ctx c = some x → x.stop = .none → p.closed ≤ p.taken → p.taken < p.begun → p.taken + 1 = p.length →
      (s.buffer p.buffer).assigned = some (d, p.home) → o.buffer = p.buffer → p.sector p.taken ∈ o.needed →
      (s.buffer p.buffer).dirty = [] → o.retry < (s.policy d).retryLimit →
      let u := (({ s with path := { s.path with grant := none } }).setOrient d (some { o with
        first := (firstLast o.needed).1, last := (firstLast o.needed).2, retry := o.retry + 1 })).setArm d .orienting
      exec (.sectorResult d (p.sector p.taken) .uncorrectable) s = .next u ∧
      exec (.passEnd d (.result (p.sector p.taken) .uncorrectable)) s = .next u) ∧
    ∀ (p : Pass) (o : Orient), (s.drive d).arm = .transferring → s.path.grant = some p → p.drive = d →
      s.orients.get d = some o → p.dropped = false → p.closed ≤ p.taken → p.taken < p.begun →
      p.taken + 1 = p.length → (s.buffer p.buffer).assigned = some (d, p.home) →
      let x := p.sector p.taken
      let gives := fun (r : PassResult) (u : State) =>
        exec (.sectorResult d x r) s = .next u ∧ exec (.passEnd d (.result x r)) s = .next u
      (p.work = .destage p.buffer → p.dir = .write → (s.buffer p.buffer).destage = .running → x ∉ p.withheld →
        x ∉ p.stored → (s.buffer p.buffer).dirty = [x] → (∀ r ∈ (s.buffer p.buffer).runs, r.1 ≤ p.last) →
        pinned s p.buffer = false → (s.drive d).cyl ≠ none → noWork d s → s.bufWait = [] → noFlush d s →
        let t := ((armCleared d s).setArm d .idle).modTracks d fun t => { t with entries := t.entries.map fun e =>
          if e.home = p.home then { e with lost := e.lost.filter fun y => y != x } else e }
        ((s.policy d).retain = false → gives .written (t.modBuffer p.buffer fun r =>
          ⟨none, [], false, .none, [], none, r.parityForce⟩)) ∧
        ((s.policy d).retain = true → gives .written (t.modBuffer p.buffer fun r =>
          { r with cells := cleanCell x r.cells, destage := .none, runs := [] }))) ∧
      ∀ r : Relocation, (s.track d).reloc = some r → r.buffer = some p.buffer →
        let ended : State := { s with path := { s.path with grant := none } }
        let took := fun data => (ended.setOrient d (some { o with needed := o.needed.filter fun y => y != x })).modBuffer
          p.buffer fun k => { k with cells := putCell x ⟨data, false, k.parityForce⟩ k.cells, parityForce := false }
        (∀ data j, p.work = .relocation .readOld → p.dir = .read → (s.fence d).causes.offTrack = false →
          x ∈ o.needed → (∀ y ∈ o.needed, y = x) → (s.buffer p.buffer).dirty = [] → freeSpare (s.track d) = some j →
          gives (.good data) (settle (((took data).modTracks d fun t =>
            { t with pool := put t.pool j .allocated
                     reloc := some { r with newSpare := some j, phase := .writeNew, pending := rising r.pending } }).later
            [.armIdle d]))) ∧
        ∀ i, r.newSpare = some i →
        (p.work = .relocation .writeNew → p.dir = .write → (s.drive d).cyl = some (sparePhys i).cyl →
          (s.sched d).queue = [] → (s.drive d).pending = none →
          gives .written (((((armCleared d s).setArm d .orienting).modTracks d fun t =>
            { t with reloc := some { r with phase := .verify } }).modSched d fun q =>
            { q with selection := some ⟨.relocation .verify, sparePhys i, false, 0, false, r.home, 0, 0⟩ }).setOrient d
              (some ⟨.relocation .verify, .read, p.buffer, r.home, 0, 15, allSectors, 0, 0⟩))) ∧
        (∀ data, p.work = .relocation .verify → p.dir = .read → p.noted = [] →
          (s.fence d).causes.offTrack = false → x ∈ o.needed → (s.buffer p.buffer).dirty = [] →
          (∃ k y, s.ctx k = some y ∧ y.buffer = some p.buffer) →
          (∀ k y, s.ctx k = some y → y.buffer = some p.buffer → y.state ≠ .waitStore .bufferFree) →
          let u := ((took data).modTracks d fun k =>
            { k with entries := putEntry ⟨r.home, i, rising r.pending⟩ k.entries, reloc := none, pool :=
                match r.old.spare with
                | some j => put (put k.pool i .inUse) j .retired
                | none => put k.pool i .inUse }).modBuffer p.buffer fun k =>
            { k with cells := cleanCells k.cells, relocPin := false }
          gives (.good data) (settle (State.later [.relocOutcome d r.home .relocated, .recordFree d, .armIdle d]
            { u with lru := (s.lru.filter fun n => n != p.buffer) ++ [p.buffer] }))) ∧
        (∀ j, p.work = .relocation .verify → p.dir = .read → (s.buffer p.buffer).dirty = [] →
          freeSpare { s.track d with pool := put (s.track d).pool i .retired } = some j →
          gives .uncorrectable (settle ((ended.modTracks d fun t =>
            { t with pool := put (put t.pool i .retired) j .allocated
                     reloc := some { r with newSpare := some j, phase := .writeNew } }).later [.armIdle d])))

/-- R178, R179, R182, R187, R114: a condition already present, or already absent, changes nothing. One that neither
fences the drive nor meets a write pass joins the causes; a Fence Source fences an IDLE drive: the arm enters FENCED,
SAFE-STATE goes out and DRIVE-FENCED is raised. A condition that goes leaves the causes, and releases the fence where
Auto-Release says so. The mark `safeSent`, which the entry into FENCED sets, is the model's own (log 36, DEDUCED). -/
def Obligations.ConditionsKept : Prop :=
  (∀ (d : DriveNo) (c : DriveCondition) (s : State), calm s →
    ((s.fence d).causes.has c = true → exec (.conditionRaised d c) s = .next s) ∧
    ((s.fence d).causes.has c = false → exec (.conditionCleared d c) s = .next s) ∧
    ((s.fence d).causes.has c = false →
      ((s.fence d).flag = true ∨
        (((s.fence d).causes.with c true).meets (s.policy d).fenceSources = false ∧ (s.fence d).forced = false)) →
      (c = .writeFault → (s.drive d).arm ≠ .transferring) →
      exec (.conditionRaised d c) s = .next (s.modFence d fun f => { f with causes := f.causes.with c true })) ∧
    ((s.fence d).causes.has c = true →
      let left := (s.fence d).causes.with c false
      let releases := (s.fence d).flag = true ∧ (s.policy d).autoRelease = true ∧
        left.meets (s.policy d).fenceSources = false ∧ (s.fence d).forced = false
      (releases → exec (.conditionCleared d c) s =
        .next (s.modFence d fun f => { f with causes := left, flag := false, releasePending := true })) ∧
      (¬releases → exec (.conditionCleared d c) s = .next (s.modFence d fun f => { f with causes := left })))) ∧
  ∀ (d : DriveNo) (c : DriveCondition) (s : State), calm s → (s.fence d).causes.has c = false →
    (s.fence d).flag = false → (s.fence d).releasePending = false → (s.policy d).fenceSources.has c = true →
    (s.drive d).arm = .idle → (s.sched d).selection = none → (s.track d).reloc = none →
    exec (.conditionRaised d c) s = .next (raiseDrive d (.driveFenced d) (((armCleared d (s.modFence d fun f =>
      { f with causes := f.causes.with c true, flag := true, commanded := some (s.policy d).safeState,
               safeSent := true })).setArm d .fenced).order d (.safeState (s.policy d).safeState)))

/-- R189: the INDEX that finds a FENCED arm with its release pending and no seek in flight releases the fence, here of a
WRITE-INHIBIT drive with a known cylinder and no work: SAFE-STATE END goes out, the arm enters IDLE, DRIVE-FENCED ends
and FENCE-RELEASED is raised. That SAFE-STATE END goes out exactly where the mark `safeSent` stands is log 36
(DEDUCED): an arm that became FENCED by a rule has it. -/
def Obligations.FenceReleased : Prop :=
  ∀ (d : DriveNo) (cyl : Fin 604) (s : State), calm s → (s.drive d).arm = .fenced → (s.fence d).flag = false →
    (s.fence d).releasePending = true → (s.fence d).commanded = some .writeInhibit → (s.drive d).seekTarget = none →
    (s.drive d).cyl = some cyl → noWork d s → s.bufWait = [] →
    let t := (s.modDrive d fun r => { r with arm := .idle, indexSeen := true, position := none }).modFence d fun f =>
      { f with releasePending := false, commanded := none, safeSent := false }
    let u := if (s.fence d).safeSent then t.order d .safeStateEnd else t
    exec (.index d) s = .next (raiseDrive d (.fenceReleased d) (endLevel (.driveFenced d) u))

/-- R89: the choice of the arm's next work. A relocation in a phase that needs the arm and holds its buffer goes first;
then the oldest eligible item at the Pass Limit; then the oldest on the arm's cylinder; then the nearest ahead in
the sweep; then the nearest behind, the oldest among equals. -/
def Obligations.SelectionOrder : Prop :=
  ∀ (s : State) (d : DriveNo) (cur : Fin 604) (i : QueueItem),
    let q := (s.sched d).queue.filter (eligible s d)
    let cyl := fun j => (physOf s d j).cyl
    let due := fun j : QueueItem => (s.policy d).passLimit ≠ 0 ∧ (s.policy d).passLimit ≤ j.passes
    let front := fun j => ahead (s.drive d).sweep cur (cyl j) = true
    (∀ r, relocItem s d = some r → nextItem s d cur = some r) ∧
    (relocItem s d = none → q.Pairwise (fun a b => a.rank < b.rank) → nextItem s d cur = some i →
      i ∈ q ∧
      ((∃ j ∈ q, due j) → due i ∧ ∀ j ∈ q, due j → i.rank ≤ j.rank) ∧
      ((∀ j ∈ q, ¬due j) → (∃ j ∈ q, cyl j = cur) → cyl i = cur ∧ ∀ j ∈ q, cyl j = cur → i.rank ≤ j.rank) ∧
      ((∀ j ∈ q, ¬due j ∧ cyl j ≠ cur) →
        ((∃ j ∈ q, front j) → front i) ∧
        ∀ j ∈ q, (front j ↔ front i) →
          distance (cyl i) cur ≤ distance (cyl j) cur ∧
          (distance (cyl i) cur = distance (cyl j) cur → i.rank ≤ j.rank))) ∧
    (relocItem s d = none → (nextItem s d cur = none ↔ q = []))

/-- R2: a home track with an entry in the map is on the spare the entry names, spare i on cylinder 600 + i div 10 and
head i mod 10; without one it is itself. -/
def Obligations.TranslationByMap : Prop :=
  ∀ (t : Tracks) (h : HomeTrack),
    (∀ before e after, t.entries = before ++ e :: after → e.home = h → (∀ k ∈ before, k.home ≠ h) →
      (translate t h).cyl.val = 600 + e.spare.val / 10 ∧ (translate t h).head.val = e.spare.val % 10) ∧
    ((∀ e ∈ t.entries, e.home ≠ h) → (translate t h).cyl.val = h.cyl.val ∧ (translate t h).head = h.head)

/-- R48, R49, R54: a raised item joins the set as its youngest, or merges into a pending one of its identity, and nothing
is raised on a DOWN link. An IDLE link offers the item of highest level above its floor, the oldest among equal levels,
and with none above it nothing; a link that is not IDLE makes no choice. -/
def Obligations.RaisingAndChoice : Prop :=
  (∀ (l : LinkNo) (body : ItemBody) (s : State),
    let items := (s.present.get l).items
    let pending := fun i => onOffer s l i = false ∧ i.body.same body = true
    ((s.port l).state = .down → raise l body s = s) ∧
    ((s.port l).state ≠ .down → (∀ i ∈ items, ¬pending i) → items.length < 64 →
      raise l body s = choose l (s.modPresent l fun p =>
        { p with items := p.items ++ [⟨p.nextAge, body, false⟩], nextAge := p.nextAge + 1 })) ∧
    ((s.port l).state ≠ .down → (∃ i ∈ items, pending i) →
      raise l body s = choose l (s.modPresent l fun p => { p with items := p.items.map (fun i =>
        if onOffer s l i = false ∧ i.body.same body = true then { i with body := i.body.merge body } else i) }))) ∧
  ∀ (l : LinkNo) (s : State),
    let above := fun i : Item => (s.port l).floor < levelOf s l i.body.kind
    ((s.port l).state ≠ .idle → choose l s = s) ∧
    ((s.port l).state = .idle → (∀ i ∈ (s.present.get l).items, ¬above i) → choose l s = s) ∧
    ∀ i ∈ (s.present.get l).items, (s.port l).state = .idle → above i →
      (∀ j ∈ (s.present.get l).items, above j → levelOf s l j.body.kind ≤ levelOf s l i.body.kind ∧
        (levelOf s l j.body.kind = levelOf s l i.body.kind → i.age ≤ j.age)) →
      (s.present.get l).items.Pairwise (fun a b => a.age < b.age) →
      choose l s = (s.frame l (offerFrame s i)).modPort l fun p => { p with state := .offering i.age }

/-- R168: a reported track. On a map that is not LOADED nothing happens; a track on the list counts one more, up to 15; a
new one joins as DETECTED with count 1; a full list raises SUSPECT-LIST-FULL on every link that is not DOWN. -/
def Obligations.TrackReported : Prop :=
  ∀ (d : DriveNo) (h : HomeTrack) (s : State),
    let found := ∃ e ∈ s.suspects, e.drive = d ∧ e.home = h
    let counts := fun e : Suspect =>
      if e.drive = d ∧ e.home = h then { e with count := if e.count < 15 then e.count + 1 else e.count } else e
    let lists := fun es : List Suspect => ({ s with suspects := es } : State).later [.threshold d h]
    ((s.track d).map ≠ .loaded → report d h s = s) ∧
    ((s.track d).map = .loaded → found → report d h s = lists (s.suspects.map counts)) ∧
    ((s.track d).map = .loaded → ¬found → s.suspects.length < 16 →
      report d h s = lists (s.suspects ++ [⟨d, h, 1, .detected, false, false⟩])) ∧
    ((s.track d).map = .loaded → ¬found → 16 ≤ s.suspects.length →
      report d h s = raiseOn (allLinks.filter fun l => (s.port l).state != .down) .suspectListFull s)
end

