-- ==== Sys2Proof/Laws/State.lean ====
section
/-! SUPPORT. What each update of the state leaves in each of its fields: for every update one equation for the field it
writes, and one theorem, which simp splits, for all the fields it keeps. -/

namespace Sys2Proof.Machine.Laws

/-- One place of a table after it has been replaced. -/
@[simp] theorem get_put {α : Type} {n : Nat} (v : Vector α n) (i j : Fin n) (x : α) :
    (put v i x).get j = if i = j then x else v.get j := by
  simp [put, Vector.get_eq_getElem, Vector.getElem_set, Fin.ext_iff]

/-- One place of a table after it has been changed. -/
@[simp] theorem get_change {α : Type} {n : Nat} (v : Vector α n) (i j : Fin n) (f : α → α) :
    (change v i f).get j = if i = j then f (v.get i) else v.get j := by
  simp [change]

/-- A change that changes nothing. -/
theorem change_id {α : Type} {n : Nat} (v : Vector α n) (i : Fin n) (f : α → α) (h : f (v.get i) = v.get i) :
    change v i f = v := by
  apply Vector.ext
  intro j hj
  have hg := get_change v i ⟨j, hj⟩ f
  simp only [Vector.get_eq_getElem] at hg h
  rw [hg]
  split
  · next e => subst e; simpa using h
  · rfl

/-- Two changes of one place are one change. -/
@[simp] theorem change_change {α : Type} {n : Nat} (v : Vector α n) (i : Fin n) (f g : α → α) :
    change (change v i f) i g = change v i fun x => g (f x) := by
  apply Vector.ext
  intro j hj
  simp [change, put, Vector.get_eq_getElem, Vector.getElem_set]

section
variable (s : State)

@[simp] theorem modPort_ports (l : LinkNo) (f : Port → Port) : (s.modPort l f).ports = change s.ports l f := rfl

@[simp] theorem modPort_keeps (l : LinkNo) (f : Port → Port) :
    (s.modPort l f).auth = s.auth ∧ (s.modPort l f).lineUp = s.lineUp ∧ (s.modPort l f).present = s.present ∧
    (s.modPort l f).contexts = s.contexts ∧ (s.modPort l f).acceptCount = s.acceptCount ∧
    (s.modPort l f).ctxWait = s.ctxWait ∧ (s.modPort l f).paths = s.paths ∧ (s.modPort l f).resv = s.resv ∧
    (s.modPort l f).drives = s.drives ∧ (s.modPort l f).scheds = s.scheds ∧ (s.modPort l f).path = s.path ∧
    (s.modPort l f).orients = s.orients ∧ (s.modPort l f).buffers = s.buffers ∧ (s.modPort l f).lru = s.lru ∧
    (s.modPort l f).bufWait = s.bufWait ∧ (s.modPort l f).capture = s.capture ∧
    (s.modPort l f).further = s.further ∧ (s.modPort l f).tracks = s.tracks ∧
    (s.modPort l f).suspects = s.suspects ∧ (s.modPort l f).fences = s.fences ∧
    (s.modPort l f).attachMemory = s.attachMemory ∧ (s.modPort l f).switches = s.switches ∧
    (s.modPort l f).clearLine = s.clearLine ∧ (s.modPort l f).sent = s.sent ∧ (s.modPort l f).work = s.work ∧
    (s.modPort l f).pending = s.pending := by
  repeat' constructor

@[simp] theorem modAuth_auth (l : LinkNo) (f : Authority → Authority) : (s.modAuth l f).auth = change s.auth l f := rfl

@[simp] theorem modAuth_keeps (l : LinkNo) (f : Authority → Authority) :
    (s.modAuth l f).ports = s.ports ∧ (s.modAuth l f).lineUp = s.lineUp ∧ (s.modAuth l f).present = s.present ∧
    (s.modAuth l f).contexts = s.contexts ∧ (s.modAuth l f).acceptCount = s.acceptCount ∧
    (s.modAuth l f).ctxWait = s.ctxWait ∧ (s.modAuth l f).paths = s.paths ∧ (s.modAuth l f).resv = s.resv ∧
    (s.modAuth l f).drives = s.drives ∧ (s.modAuth l f).scheds = s.scheds ∧ (s.modAuth l f).path = s.path ∧
    (s.modAuth l f).orients = s.orients ∧ (s.modAuth l f).buffers = s.buffers ∧ (s.modAuth l f).lru = s.lru ∧
    (s.modAuth l f).bufWait = s.bufWait ∧ (s.modAuth l f).capture = s.capture ∧
    (s.modAuth l f).further = s.further ∧ (s.modAuth l f).tracks = s.tracks ∧
    (s.modAuth l f).suspects = s.suspects ∧ (s.modAuth l f).fences = s.fences ∧
    (s.modAuth l f).attachMemory = s.attachMemory ∧ (s.modAuth l f).switches = s.switches ∧
    (s.modAuth l f).clearLine = s.clearLine ∧ (s.modAuth l f).sent = s.sent ∧ (s.modAuth l f).work = s.work ∧
    (s.modAuth l f).pending = s.pending := by
  repeat' constructor

@[simp] theorem modPresent_present (l : LinkNo) (f : Present → Present) : (s.modPresent l f).present = change s.present l f := rfl

@[simp] theorem modPresent_keeps (l : LinkNo) (f : Present → Present) :
    (s.modPresent l f).ports = s.ports ∧ (s.modPresent l f).auth = s.auth ∧ (s.modPresent l f).lineUp = s.lineUp ∧
    (s.modPresent l f).contexts = s.contexts ∧ (s.modPresent l f).acceptCount = s.acceptCount ∧
    (s.modPresent l f).ctxWait = s.ctxWait ∧ (s.modPresent l f).paths = s.paths ∧
    (s.modPresent l f).resv = s.resv ∧ (s.modPresent l f).drives = s.drives ∧
    (s.modPresent l f).scheds = s.scheds ∧ (s.modPresent l f).path = s.path ∧
    (s.modPresent l f).orients = s.orients ∧ (s.modPresent l f).buffers = s.buffers ∧
    (s.modPresent l f).lru = s.lru ∧ (s.modPresent l f).bufWait = s.bufWait ∧
    (s.modPresent l f).capture = s.capture ∧ (s.modPresent l f).further = s.further ∧
    (s.modPresent l f).tracks = s.tracks ∧ (s.modPresent l f).suspects = s.suspects ∧
    (s.modPresent l f).fences = s.fences ∧ (s.modPresent l f).attachMemory = s.attachMemory ∧
    (s.modPresent l f).switches = s.switches ∧ (s.modPresent l f).clearLine = s.clearLine ∧
    (s.modPresent l f).sent = s.sent ∧ (s.modPresent l f).work = s.work ∧ (s.modPresent l f).pending = s.pending := by
  repeat' constructor

@[simp] theorem setCtx_contexts (c : CtxNo) (x : Option Context) : (s.setCtx c x).contexts = put s.contexts c x := rfl

@[simp] theorem setCtx_keeps (c : CtxNo) (x : Option Context) :
    (s.setCtx c x).ports = s.ports ∧ (s.setCtx c x).auth = s.auth ∧ (s.setCtx c x).lineUp = s.lineUp ∧
    (s.setCtx c x).present = s.present ∧ (s.setCtx c x).acceptCount = s.acceptCount ∧
    (s.setCtx c x).ctxWait = s.ctxWait ∧ (s.setCtx c x).paths = s.paths ∧ (s.setCtx c x).resv = s.resv ∧
    (s.setCtx c x).drives = s.drives ∧ (s.setCtx c x).scheds = s.scheds ∧ (s.setCtx c x).path = s.path ∧
    (s.setCtx c x).orients = s.orients ∧ (s.setCtx c x).buffers = s.buffers ∧ (s.setCtx c x).lru = s.lru ∧
    (s.setCtx c x).bufWait = s.bufWait ∧ (s.setCtx c x).capture = s.capture ∧ (s.setCtx c x).further = s.further ∧
    (s.setCtx c x).tracks = s.tracks ∧ (s.setCtx c x).suspects = s.suspects ∧ (s.setCtx c x).fences = s.fences ∧
    (s.setCtx c x).attachMemory = s.attachMemory ∧ (s.setCtx c x).switches = s.switches ∧
    (s.setCtx c x).clearLine = s.clearLine ∧ (s.setCtx c x).sent = s.sent ∧ (s.setCtx c x).work = s.work ∧
    (s.setCtx c x).pending = s.pending := by
  repeat' constructor

@[simp] theorem modCtx_contexts (c : CtxNo) (f : Context → Context) : (s.modCtx c f).contexts = change s.contexts c (Option.map f) := rfl

@[simp] theorem modCtx_keeps (c : CtxNo) (f : Context → Context) :
    (s.modCtx c f).ports = s.ports ∧ (s.modCtx c f).auth = s.auth ∧ (s.modCtx c f).lineUp = s.lineUp ∧
    (s.modCtx c f).present = s.present ∧ (s.modCtx c f).acceptCount = s.acceptCount ∧
    (s.modCtx c f).ctxWait = s.ctxWait ∧ (s.modCtx c f).paths = s.paths ∧ (s.modCtx c f).resv = s.resv ∧
    (s.modCtx c f).drives = s.drives ∧ (s.modCtx c f).scheds = s.scheds ∧ (s.modCtx c f).path = s.path ∧
    (s.modCtx c f).orients = s.orients ∧ (s.modCtx c f).buffers = s.buffers ∧ (s.modCtx c f).lru = s.lru ∧
    (s.modCtx c f).bufWait = s.bufWait ∧ (s.modCtx c f).capture = s.capture ∧ (s.modCtx c f).further = s.further ∧
    (s.modCtx c f).tracks = s.tracks ∧ (s.modCtx c f).suspects = s.suspects ∧ (s.modCtx c f).fences = s.fences ∧
    (s.modCtx c f).attachMemory = s.attachMemory ∧ (s.modCtx c f).switches = s.switches ∧
    (s.modCtx c f).clearLine = s.clearLine ∧ (s.modCtx c f).sent = s.sent ∧ (s.modCtx c f).work = s.work ∧
    (s.modCtx c f).pending = s.pending := by
  repeat' constructor

@[simp] theorem modResv_resv (d : DriveNo) (f : Reservation → Reservation) : (s.modResv d f).resv = change s.resv d f := rfl

@[simp] theorem modResv_keeps (d : DriveNo) (f : Reservation → Reservation) :
    (s.modResv d f).ports = s.ports ∧ (s.modResv d f).auth = s.auth ∧ (s.modResv d f).lineUp = s.lineUp ∧
    (s.modResv d f).present = s.present ∧ (s.modResv d f).contexts = s.contexts ∧
    (s.modResv d f).acceptCount = s.acceptCount ∧ (s.modResv d f).ctxWait = s.ctxWait ∧
    (s.modResv d f).paths = s.paths ∧ (s.modResv d f).drives = s.drives ∧ (s.modResv d f).scheds = s.scheds ∧
    (s.modResv d f).path = s.path ∧ (s.modResv d f).orients = s.orients ∧ (s.modResv d f).buffers = s.buffers ∧
    (s.modResv d f).lru = s.lru ∧ (s.modResv d f).bufWait = s.bufWait ∧ (s.modResv d f).capture = s.capture ∧
    (s.modResv d f).further = s.further ∧ (s.modResv d f).tracks = s.tracks ∧
    (s.modResv d f).suspects = s.suspects ∧ (s.modResv d f).fences = s.fences ∧
    (s.modResv d f).attachMemory = s.attachMemory ∧ (s.modResv d f).switches = s.switches ∧
    (s.modResv d f).clearLine = s.clearLine ∧ (s.modResv d f).sent = s.sent ∧ (s.modResv d f).work = s.work ∧
    (s.modResv d f).pending = s.pending := by
  repeat' constructor

@[simp] theorem modDrive_drives (d : DriveNo) (f : Drive → Drive) : (s.modDrive d f).drives = change s.drives d f := rfl

@[simp] theorem modDrive_keeps (d : DriveNo) (f : Drive → Drive) :
    (s.modDrive d f).ports = s.ports ∧ (s.modDrive d f).auth = s.auth ∧ (s.modDrive d f).lineUp = s.lineUp ∧
    (s.modDrive d f).present = s.present ∧ (s.modDrive d f).contexts = s.contexts ∧
    (s.modDrive d f).acceptCount = s.acceptCount ∧ (s.modDrive d f).ctxWait = s.ctxWait ∧
    (s.modDrive d f).paths = s.paths ∧ (s.modDrive d f).resv = s.resv ∧ (s.modDrive d f).scheds = s.scheds ∧
    (s.modDrive d f).path = s.path ∧ (s.modDrive d f).orients = s.orients ∧ (s.modDrive d f).buffers = s.buffers ∧
    (s.modDrive d f).lru = s.lru ∧ (s.modDrive d f).bufWait = s.bufWait ∧ (s.modDrive d f).capture = s.capture ∧
    (s.modDrive d f).further = s.further ∧ (s.modDrive d f).tracks = s.tracks ∧
    (s.modDrive d f).suspects = s.suspects ∧ (s.modDrive d f).fences = s.fences ∧
    (s.modDrive d f).attachMemory = s.attachMemory ∧ (s.modDrive d f).switches = s.switches ∧
    (s.modDrive d f).clearLine = s.clearLine ∧ (s.modDrive d f).sent = s.sent ∧ (s.modDrive d f).work = s.work ∧
    (s.modDrive d f).pending = s.pending := by
  repeat' constructor

@[simp] theorem setArm_drives (d : DriveNo) (a : ArmState) : (s.setArm d a).drives = change s.drives d fun r => { r with arm := a } := rfl

@[simp] theorem setArm_keeps (d : DriveNo) (a : ArmState) :
    (s.setArm d a).ports = s.ports ∧ (s.setArm d a).auth = s.auth ∧ (s.setArm d a).lineUp = s.lineUp ∧
    (s.setArm d a).present = s.present ∧ (s.setArm d a).contexts = s.contexts ∧
    (s.setArm d a).acceptCount = s.acceptCount ∧ (s.setArm d a).ctxWait = s.ctxWait ∧
    (s.setArm d a).paths = s.paths ∧ (s.setArm d a).resv = s.resv ∧ (s.setArm d a).scheds = s.scheds ∧
    (s.setArm d a).path = s.path ∧ (s.setArm d a).orients = s.orients ∧ (s.setArm d a).buffers = s.buffers ∧
    (s.setArm d a).lru = s.lru ∧ (s.setArm d a).bufWait = s.bufWait ∧ (s.setArm d a).capture = s.capture ∧
    (s.setArm d a).further = s.further ∧ (s.setArm d a).tracks = s.tracks ∧ (s.setArm d a).suspects = s.suspects ∧
    (s.setArm d a).fences = s.fences ∧ (s.setArm d a).attachMemory = s.attachMemory ∧
    (s.setArm d a).switches = s.switches ∧ (s.setArm d a).clearLine = s.clearLine ∧ (s.setArm d a).sent = s.sent ∧
    (s.setArm d a).work = s.work ∧ (s.setArm d a).pending = s.pending := by
  repeat' constructor

@[simp] theorem modSched_scheds (d : DriveNo) (f : Scheduler → Scheduler) : (s.modSched d f).scheds = change s.scheds d f := rfl

@[simp] theorem modSched_keeps (d : DriveNo) (f : Scheduler → Scheduler) :
    (s.modSched d f).ports = s.ports ∧ (s.modSched d f).auth = s.auth ∧ (s.modSched d f).lineUp = s.lineUp ∧
    (s.modSched d f).present = s.present ∧ (s.modSched d f).contexts = s.contexts ∧
    (s.modSched d f).acceptCount = s.acceptCount ∧ (s.modSched d f).ctxWait = s.ctxWait ∧
    (s.modSched d f).paths = s.paths ∧ (s.modSched d f).resv = s.resv ∧ (s.modSched d f).drives = s.drives ∧
    (s.modSched d f).path = s.path ∧ (s.modSched d f).orients = s.orients ∧ (s.modSched d f).buffers = s.buffers ∧
    (s.modSched d f).lru = s.lru ∧ (s.modSched d f).bufWait = s.bufWait ∧ (s.modSched d f).capture = s.capture ∧
    (s.modSched d f).further = s.further ∧ (s.modSched d f).tracks = s.tracks ∧
    (s.modSched d f).suspects = s.suspects ∧ (s.modSched d f).fences = s.fences ∧
    (s.modSched d f).attachMemory = s.attachMemory ∧ (s.modSched d f).switches = s.switches ∧
    (s.modSched d f).clearLine = s.clearLine ∧ (s.modSched d f).sent = s.sent ∧ (s.modSched d f).work = s.work ∧
    (s.modSched d f).pending = s.pending := by
  repeat' constructor

@[simp] theorem setOrient_orients (d : DriveNo) (o : Option Orient) : (s.setOrient d o).orients = put s.orients d o := rfl

@[simp] theorem setOrient_keeps (d : DriveNo) (o : Option Orient) :
    (s.setOrient d o).ports = s.ports ∧ (s.setOrient d o).auth = s.auth ∧ (s.setOrient d o).lineUp = s.lineUp ∧
    (s.setOrient d o).present = s.present ∧ (s.setOrient d o).contexts = s.contexts ∧
    (s.setOrient d o).acceptCount = s.acceptCount ∧ (s.setOrient d o).ctxWait = s.ctxWait ∧
    (s.setOrient d o).paths = s.paths ∧ (s.setOrient d o).resv = s.resv ∧ (s.setOrient d o).drives = s.drives ∧
    (s.setOrient d o).scheds = s.scheds ∧ (s.setOrient d o).path = s.path ∧ (s.setOrient d o).buffers = s.buffers ∧
    (s.setOrient d o).lru = s.lru ∧ (s.setOrient d o).bufWait = s.bufWait ∧ (s.setOrient d o).capture = s.capture ∧
    (s.setOrient d o).further = s.further ∧ (s.setOrient d o).tracks = s.tracks ∧
    (s.setOrient d o).suspects = s.suspects ∧ (s.setOrient d o).fences = s.fences ∧
    (s.setOrient d o).attachMemory = s.attachMemory ∧ (s.setOrient d o).switches = s.switches ∧
    (s.setOrient d o).clearLine = s.clearLine ∧ (s.setOrient d o).sent = s.sent ∧ (s.setOrient d o).work = s.work ∧
    (s.setOrient d o).pending = s.pending := by
  repeat' constructor

@[simp] theorem modBuffer_buffers (b : BufNo) (f : Buffer → Buffer) : (s.modBuffer b f).buffers = change s.buffers b f := rfl

@[simp] theorem modBuffer_keeps (b : BufNo) (f : Buffer → Buffer) :
    (s.modBuffer b f).ports = s.ports ∧ (s.modBuffer b f).auth = s.auth ∧ (s.modBuffer b f).lineUp = s.lineUp ∧
    (s.modBuffer b f).present = s.present ∧ (s.modBuffer b f).contexts = s.contexts ∧
    (s.modBuffer b f).acceptCount = s.acceptCount ∧ (s.modBuffer b f).ctxWait = s.ctxWait ∧
    (s.modBuffer b f).paths = s.paths ∧ (s.modBuffer b f).resv = s.resv ∧ (s.modBuffer b f).drives = s.drives ∧
    (s.modBuffer b f).scheds = s.scheds ∧ (s.modBuffer b f).path = s.path ∧ (s.modBuffer b f).orients = s.orients ∧
    (s.modBuffer b f).lru = s.lru ∧ (s.modBuffer b f).bufWait = s.bufWait ∧ (s.modBuffer b f).capture = s.capture ∧
    (s.modBuffer b f).further = s.further ∧ (s.modBuffer b f).tracks = s.tracks ∧
    (s.modBuffer b f).suspects = s.suspects ∧ (s.modBuffer b f).fences = s.fences ∧
    (s.modBuffer b f).attachMemory = s.attachMemory ∧ (s.modBuffer b f).switches = s.switches ∧
    (s.modBuffer b f).clearLine = s.clearLine ∧ (s.modBuffer b f).sent = s.sent ∧ (s.modBuffer b f).work = s.work ∧
    (s.modBuffer b f).pending = s.pending := by
  repeat' constructor

@[simp] theorem modTracks_tracks (d : DriveNo) (f : Tracks → Tracks) : (s.modTracks d f).tracks = change s.tracks d f := rfl

@[simp] theorem modTracks_keeps (d : DriveNo) (f : Tracks → Tracks) :
    (s.modTracks d f).ports = s.ports ∧ (s.modTracks d f).auth = s.auth ∧ (s.modTracks d f).lineUp = s.lineUp ∧
    (s.modTracks d f).present = s.present ∧ (s.modTracks d f).contexts = s.contexts ∧
    (s.modTracks d f).acceptCount = s.acceptCount ∧ (s.modTracks d f).ctxWait = s.ctxWait ∧
    (s.modTracks d f).paths = s.paths ∧ (s.modTracks d f).resv = s.resv ∧ (s.modTracks d f).drives = s.drives ∧
    (s.modTracks d f).scheds = s.scheds ∧ (s.modTracks d f).path = s.path ∧ (s.modTracks d f).orients = s.orients ∧
    (s.modTracks d f).buffers = s.buffers ∧ (s.modTracks d f).lru = s.lru ∧ (s.modTracks d f).bufWait = s.bufWait ∧
    (s.modTracks d f).capture = s.capture ∧ (s.modTracks d f).further = s.further ∧
    (s.modTracks d f).suspects = s.suspects ∧ (s.modTracks d f).fences = s.fences ∧
    (s.modTracks d f).attachMemory = s.attachMemory ∧ (s.modTracks d f).switches = s.switches ∧
    (s.modTracks d f).clearLine = s.clearLine ∧ (s.modTracks d f).sent = s.sent ∧ (s.modTracks d f).work = s.work ∧
    (s.modTracks d f).pending = s.pending := by
  repeat' constructor

@[simp] theorem modFence_fences (d : DriveNo) (f : Fence → Fence) : (s.modFence d f).fences = change s.fences d f := rfl

@[simp] theorem modFence_keeps (d : DriveNo) (f : Fence → Fence) :
    (s.modFence d f).ports = s.ports ∧ (s.modFence d f).auth = s.auth ∧ (s.modFence d f).lineUp = s.lineUp ∧
    (s.modFence d f).present = s.present ∧ (s.modFence d f).contexts = s.contexts ∧
    (s.modFence d f).acceptCount = s.acceptCount ∧ (s.modFence d f).ctxWait = s.ctxWait ∧
    (s.modFence d f).paths = s.paths ∧ (s.modFence d f).resv = s.resv ∧ (s.modFence d f).drives = s.drives ∧
    (s.modFence d f).scheds = s.scheds ∧ (s.modFence d f).path = s.path ∧ (s.modFence d f).orients = s.orients ∧
    (s.modFence d f).buffers = s.buffers ∧ (s.modFence d f).lru = s.lru ∧ (s.modFence d f).bufWait = s.bufWait ∧
    (s.modFence d f).capture = s.capture ∧ (s.modFence d f).further = s.further ∧
    (s.modFence d f).tracks = s.tracks ∧ (s.modFence d f).suspects = s.suspects ∧
    (s.modFence d f).attachMemory = s.attachMemory ∧ (s.modFence d f).switches = s.switches ∧
    (s.modFence d f).clearLine = s.clearLine ∧ (s.modFence d f).sent = s.sent ∧ (s.modFence d f).work = s.work ∧
    (s.modFence d f).pending = s.pending := by
  repeat' constructor

@[simp] theorem send_sent (o : Output) : (s.send o).sent = s.sent ++ [o] := rfl

@[simp] theorem send_keeps (o : Output) :
    (s.send o).ports = s.ports ∧ (s.send o).auth = s.auth ∧ (s.send o).lineUp = s.lineUp ∧
    (s.send o).present = s.present ∧ (s.send o).contexts = s.contexts ∧ (s.send o).acceptCount = s.acceptCount ∧
    (s.send o).ctxWait = s.ctxWait ∧ (s.send o).paths = s.paths ∧ (s.send o).resv = s.resv ∧
    (s.send o).drives = s.drives ∧ (s.send o).scheds = s.scheds ∧ (s.send o).path = s.path ∧
    (s.send o).orients = s.orients ∧ (s.send o).buffers = s.buffers ∧ (s.send o).lru = s.lru ∧
    (s.send o).bufWait = s.bufWait ∧ (s.send o).capture = s.capture ∧ (s.send o).further = s.further ∧
    (s.send o).tracks = s.tracks ∧ (s.send o).suspects = s.suspects ∧ (s.send o).fences = s.fences ∧
    (s.send o).attachMemory = s.attachMemory ∧ (s.send o).switches = s.switches ∧
    (s.send o).clearLine = s.clearLine ∧ (s.send o).work = s.work ∧ (s.send o).pending = s.pending := by
  repeat' constructor

@[simp] theorem frame_sent (l : LinkNo) (f : HostFrame) : (s.frame l f).sent = s.sent ++ [.frame l f] := rfl

@[simp] theorem frame_keeps (l : LinkNo) (f : HostFrame) :
    (s.frame l f).ports = s.ports ∧ (s.frame l f).auth = s.auth ∧ (s.frame l f).lineUp = s.lineUp ∧
    (s.frame l f).present = s.present ∧ (s.frame l f).contexts = s.contexts ∧
    (s.frame l f).acceptCount = s.acceptCount ∧ (s.frame l f).ctxWait = s.ctxWait ∧ (s.frame l f).paths = s.paths ∧
    (s.frame l f).resv = s.resv ∧ (s.frame l f).drives = s.drives ∧ (s.frame l f).scheds = s.scheds ∧
    (s.frame l f).path = s.path ∧ (s.frame l f).orients = s.orients ∧ (s.frame l f).buffers = s.buffers ∧
    (s.frame l f).lru = s.lru ∧ (s.frame l f).bufWait = s.bufWait ∧ (s.frame l f).capture = s.capture ∧
    (s.frame l f).further = s.further ∧ (s.frame l f).tracks = s.tracks ∧ (s.frame l f).suspects = s.suspects ∧
    (s.frame l f).fences = s.fences ∧ (s.frame l f).attachMemory = s.attachMemory ∧
    (s.frame l f).switches = s.switches ∧ (s.frame l f).clearLine = s.clearLine ∧ (s.frame l f).work = s.work ∧
    (s.frame l f).pending = s.pending := by
  repeat' constructor

@[simp] theorem order_sent (d : DriveNo) (o : Order) : (s.order d o).sent = s.sent ++ [.order d o] := rfl

@[simp] theorem order_keeps (d : DriveNo) (o : Order) :
    (s.order d o).ports = s.ports ∧ (s.order d o).auth = s.auth ∧ (s.order d o).lineUp = s.lineUp ∧
    (s.order d o).present = s.present ∧ (s.order d o).contexts = s.contexts ∧
    (s.order d o).acceptCount = s.acceptCount ∧ (s.order d o).ctxWait = s.ctxWait ∧ (s.order d o).paths = s.paths ∧
    (s.order d o).resv = s.resv ∧ (s.order d o).drives = s.drives ∧ (s.order d o).scheds = s.scheds ∧
    (s.order d o).path = s.path ∧ (s.order d o).orients = s.orients ∧ (s.order d o).buffers = s.buffers ∧
    (s.order d o).lru = s.lru ∧ (s.order d o).bufWait = s.bufWait ∧ (s.order d o).capture = s.capture ∧
    (s.order d o).further = s.further ∧ (s.order d o).tracks = s.tracks ∧ (s.order d o).suspects = s.suspects ∧
    (s.order d o).fences = s.fences ∧ (s.order d o).attachMemory = s.attachMemory ∧
    (s.order d o).switches = s.switches ∧ (s.order d o).clearLine = s.clearLine ∧ (s.order d o).work = s.work ∧
    (s.order d o).pending = s.pending := by
  repeat' constructor

@[simp] theorem later_work (ts : List Task) : (s.later ts).work = s.work ++ ts := rfl

@[simp] theorem later_keeps (ts : List Task) :
    (s.later ts).ports = s.ports ∧ (s.later ts).auth = s.auth ∧ (s.later ts).lineUp = s.lineUp ∧
    (s.later ts).present = s.present ∧ (s.later ts).contexts = s.contexts ∧
    (s.later ts).acceptCount = s.acceptCount ∧ (s.later ts).ctxWait = s.ctxWait ∧ (s.later ts).paths = s.paths ∧
    (s.later ts).resv = s.resv ∧ (s.later ts).drives = s.drives ∧ (s.later ts).scheds = s.scheds ∧
    (s.later ts).path = s.path ∧ (s.later ts).orients = s.orients ∧ (s.later ts).buffers = s.buffers ∧
    (s.later ts).lru = s.lru ∧ (s.later ts).bufWait = s.bufWait ∧ (s.later ts).capture = s.capture ∧
    (s.later ts).further = s.further ∧ (s.later ts).tracks = s.tracks ∧ (s.later ts).suspects = s.suspects ∧
    (s.later ts).fences = s.fences ∧ (s.later ts).attachMemory = s.attachMemory ∧
    (s.later ts).switches = s.switches ∧ (s.later ts).clearLine = s.clearLine ∧ (s.later ts).sent = s.sent ∧
    (s.later ts).pending = s.pending := by
  repeat' constructor

end

end Sys2Proof.Machine.Laws
end

