-- ==== Sys2Proof/Laws/Work.lean ====
section
/-! SUPPORT. Internal work: what a run of pieces keeps, and what it is when there is little or none. -/

namespace Sys2Proof.Machine.Laws

/-- What each application keeps, the whole keeps. -/
theorem each_keeps {α : Type} {P : State → Prop} {f : α → State → State} (h : ∀ x t, P t → P (f x t)) (xs : List α) :
    ∀ s, P s → P (each xs f s) := by
  induction xs with
  | nil => exact fun s hs => hs
  | cons x r ih => exact fun s hs => ih _ (h x s hs)

@[simp] theorem each_nil {α : Type} (f : α → State → State) (s : State) : each [] f s = s := rfl

@[simp] theorem each_cons {α : Type} (x : α) (xs : List α) (f : α → State → State) (s : State) :
    each (x :: xs) f s = each xs f (f x s) := rfl

@[simp] theorem drain_nil (n : Nat) (s : State) : drain (n + 1) [] s = s := rfl

theorem drain_cons (n : Nat) (t : Task) (ts : List Task) (s : State) :
    drain (n + 1) (t :: ts) s = drain n ((runTask t s).work ++ ts) { runTask t s with work := [] } := rfl

/-- What every piece of work keeps, and what does not concern the work list, a run of pieces keeps. -/
theorem drain_keeps {P : State → Prop} (hw : ∀ s w, P s → P { s with work := w })
    (ht : ∀ t s, P s → P (runTask t s)) : ∀ n ts s, P s → P (drain n ts s) := by
  intro n
  induction n with
  | zero => exact fun ts s hs => hw s ts hs
  | succ n ih =>
    intro ts s hs
    cases ts with
    | nil => exact hs
    | cons t r => exact ih _ _ (hw _ _ (ht t s hs))

theorem settle_keeps {P : State → Prop} (hw : ∀ s w, P s → P { s with work := w })
    (ht : ∀ t s, P s → P (runTask t s)) (s : State) (hs : P s) : P (settle s) :=
  drain_keeps hw ht _ _ _ (hw _ _ hs)

/-- A command keeps what its own effect and every piece of work keep. -/
theorem take_keeps {P : State → Prop} (hw : ∀ s w, P s → P { s with work := w })
    (ht : ∀ t s, P s → P (runTask t s)) {f : State → State} (hf : ∀ s, P s → P (f s)) {s t : State} (hs : P s)
    (h : take s f = .next t) : P t := by
  unfold take at h
  injection h with h
  subst h
  split
  · exact hs
  · exact settle_keeps hw ht _ (hf _ (settle_keeps hw ht _ hs))

/-- With no work, nothing is done. -/
@[simp] theorem settle_calm (s : State) (h : s.work = []) : settle s = s := by
  unfold settle
  rw [h]
  show drain (4095 + 1) [] _ = s
  rw [drain_nil]
  cases s
  simp_all

/-- One piece of work that hands on nothing. -/
theorem settle_single (s : State) (t : Task) (h : s.work = []) (ht : (runTask t s).work = []) :
    settle (s.later [t]) = runTask t s := by
  have e : ({ s.later [t] with work := [] } : State) = s := by cases s; simp_all [State.later]
  unfold settle
  rw [e]
  have hl : (s.later [t]).work = [t] := by simp [h]
  rw [hl]
  show drain (4095 + 1) [t] s = _
  rw [drain_cons, ht]
  show drain (4094 + 1) [] _ = _
  rw [drain_nil]
  generalize runTask t s = u at ht ⊢
  cases u
  simp_all

/-- A command taken between two others, with no work left over. -/
theorem take_calm (s : State) (f : State → State) (hc : s.clearLine = false) (hw : s.work = []) :
    take s f = .next (settle (f s)) := by
  simp [take, hc, hw]

/-- A command whose effect hands on no work. -/
theorem take_plain (s : State) (f : State → State) (hc : s.clearLine = false) (hw : s.work = [])
    (hf : (f s).work = []) : take s f = .next (f s) := by
  rw [take_calm s f hc hw, settle_calm _ hf]

end Sys2Proof.Machine.Laws
end

