-- ==== Sys2Proof/Laws/Buffers.lean ====
section
/-! SUPPORT. The sector store of a buffer: every change keeps its canonical form, and what it holds afterwards. When a
destage item is given, and when a relocation phase is begun again. -/

namespace Sys2Proof.Machine.Laws

theorem putCell_mem (x : SectorNo) (c : Cell) (cs : List (SectorNo × Cell)) (p : SectorNo × Cell)
    (h : p ∈ putCell x c cs) : p = (x, c) ∨ p ∈ cs := by
  induction cs with
  | nil => simpa [putCell] using h
  | cons q r ih =>
    obtain ⟨y, d⟩ := q
    unfold putCell at h
    split at h
    · simpa using h
    · split at h
      · rcases List.mem_cons.mp h with h | h
        · exact .inl h
        · exact .inr (List.mem_cons_of_mem _ h)
      · rcases List.mem_cons.mp h with h | h
        · exact .inr (by simp [h])
        · rcases ih h with h | h
          · exact .inl h
          · exact .inr (List.mem_cons_of_mem _ h)

/-- A store keeps the canonical form. -/
theorem cellsWf_putCell (x : SectorNo) (c : Cell) (cs : List (SectorNo × Cell)) (h : cellsWf cs = true) :
    cellsWf (putCell x c cs) = true := by
  simp only [cellsWf, decide_eq_true_eq, List.pairwise_map] at h ⊢
  induction cs with
  | nil => simp [putCell]
  | cons q r ih =>
    obtain ⟨y, d⟩ := q
    have hr := List.pairwise_cons.mp h
    unfold putCell
    split
    · next hx =>
      refine List.pairwise_cons.mpr ⟨fun p hp => ?_, h⟩
      rcases List.mem_cons.mp hp with rfl | hp
      · exact hx
      · exact lt_trans hx (hr.1 p hp)
    · split
      · next _ he => subst he; exact List.pairwise_cons.mpr ⟨hr.1, hr.2⟩
      · next hlt hne =>
        refine List.pairwise_cons.mpr ⟨fun p hp => ?_, ih hr.2⟩
        rcases putCell_mem x c r p hp with rfl | hp
        · exact lt_of_le_of_ne (not_lt.mp hlt) (Ne.symm hne)
        · exact hr.1 p hp

/-- Invalidating a sector keeps the canonical form. -/
theorem cellsWf_dropCell (x : SectorNo) (cs : List (SectorNo × Cell)) (h : cellsWf cs = true) :
    cellsWf (dropCell x cs) = true := by
  simp only [cellsWf, decide_eq_true_eq, List.pairwise_map] at h ⊢
  exact h.sublist List.filter_sublist

/-- Making a sector clean keeps the canonical form. -/
theorem cellsWf_cleanCell (x : SectorNo) (cs : List (SectorNo × Cell)) (h : cellsWf cs = true) :
    cellsWf (cleanCell x cs) = true := by
  simp only [cellsWf, decide_eq_true_eq] at h ⊢
  have e : (cleanCell x cs).map (·.1) = cs.map (·.1) := by
    simp only [cleanCell, List.map_map]
    apply List.map_congr_left
    intro p _
    simp only [Function.comp]
    split <;> rfl
  rw [e]
  exact h

/-- Making every sector clean keeps the canonical form. -/
theorem cellsWf_cleanCells (cs : List (SectorNo × Cell)) (h : cellsWf cs = true) : cellsWf (cleanCells cs) = true := by
  simp only [cellsWf, decide_eq_true_eq] at h ⊢
  have e : (cleanCells cs).map (·.1) = cs.map (·.1) := by simp [cleanCells, List.map_map, Function.comp]
  rw [e]
  exact h

/-- The sector stored is the sector found. -/
@[simp] theorem cell_putCell_self (b : Buffer) (x : SectorNo) (c : Cell) :
    Buffer.cell { b with cells := putCell x c b.cells } x = some c := by
  unfold Buffer.cell
  simp only
  induction b.cells with
  | nil => simp [putCell]
  | cons q r ih =>
    obtain ⟨y, d⟩ := q
    unfold putCell
    split
    · simp
    · split
      · simp
      · next hlt hne =>
        have : (y == x) = false := by simp [beq_eq_false_iff_ne, Ne.symm hne]
        simpa [List.find?_cons, this] using ih

/-- Any other sector is as it was. -/
theorem cell_putCell_other (b : Buffer) (x y : SectorNo) (c : Cell) (h : y ≠ x) :
    Buffer.cell { b with cells := putCell x c b.cells } y = b.cell y := by
  have hx : (x == y) = false := by simp [beq_eq_false_iff_ne, Ne.symm h]
  unfold Buffer.cell
  simp only
  induction b.cells with
  | nil => simp [putCell, hx]
  | cons q r ih =>
    obtain ⟨z, d⟩ := q
    unfold putCell
    split
    · simp [List.find?_cons, hx]
    · split
      · next _ he => subst he; simp [hx]
      · simp only [List.find?_cons]
        split
        · rfl
        · exact ih

/-- An emptied buffer keeps its parity-force flag and nothing else (R119). -/
@[simp] theorem buffer_emptyBuffer (b c : BufNo) (s : State) :
    (emptyBuffer b s).buffer c =
      if b = c then { Buffer.powerOn with parityForce := (s.buffer b).parityForce } else s.buffer c := by
  simp [emptyBuffer, State.buffer]

/-- The flush test changes no buffer (R133). -/
@[simp] theorem buffer_flushTest (d : DriveNo) (c : BufNo) (s : State) : (flushTest d s).buffer c = s.buffer c := by
  unfold flushTest
  split
  · rfl
  · refine each_keeps (P := fun t => t.buffer c = s.buffer c) (fun k t h => ?_) _ s rfl
    exact h

/-- A buffer emptied with the flush test holds what an emptied buffer holds, and no other buffer changes (R119, R133). -/
@[simp] theorem buffer_emptyOf (d : DriveNo) (b c : BufNo) (s : State) :
    (emptyOf d b s).buffer c =
      if b = c then { Buffer.powerOn with parityForce := (s.buffer b).parityForce } else s.buffer c := by
  simp [emptyOf]

/-- A buffer touched is the most recently used, and the LRU order still lists all six (R120). -/
theorem lru_touch (b : BufNo) (s : State) (h : s.lru.Perm allBufs) : (touch b s).lru.Perm allBufs := by
  have hn : s.lru.Nodup := h.nodup_iff.mpr (by decide)
  have hm : b ∈ s.lru := h.mem_iff.mpr (by fin_cases b <;> decide)
  have e : (s.lru.filter fun x => x != b) = s.lru.erase b := by rw [hn.erase_eq_filter]
  show ((s.lru.filter fun x => x != b) ++ [b]).Perm allBufs
  rw [e]
  exact (List.perm_append_comm.trans (List.perm_cons_erase hm).symm).trans h

/-! Destage items given and a phase begun again: when they change something, and what. -/

/-- Only a DIRTY buffer with Destage NONE is given an item (R130). -/
theorem giveItem_unwanted {s : State} {b : BufNo} (h : wantsItem s b = false) : giveItem b s = s := by
  simp [giveItem, h]

/-- Its item joins the Request Queue of its drive, and its Destage becomes QUEUED (R130). -/
theorem giveItem_wanted {s : State} {b : BufNo} {d : DriveNo} {h : HomeTrack} (hw : wantsItem s b = true)
    (ha : (s.buffer b).assigned = some (d, h)) :
    giveItem b s = joinQueue d (.destage b) h (s.modBuffer b fun r => { r with destage := .queued }) := by
  simp [giveItem, hw, ha]

/-- A buffer whose arm is IDLE has its item put off, so that a selection comes between it and the next (R87). -/
theorem joinInTurn_idle {s : State} {b : BufNo} (bs : List BufNo) (h : findsIdle s b = true) :
    joinInTurn (b :: bs) s = joinInTurn bs (s.later [.giveItem b]) := by
  simp [joinInTurn, each_cons, h]

/-- A buffer whose arm is not IDLE has its item at once (R83). -/
theorem joinInTurn_busy {s : State} {b : BufNo} (bs : List BufNo) (h : findsIdle s b = false) :
    joinInTurn (b :: bs) s = joinInTurn bs (giveItem b s) := by
  simp [joinInTurn, each_cons, h]

/-- Nothing begins again where no seek check has cut READ_OLD short (R164). -/
theorem beginAgain_none {s : State} {d : DriveNo} (h : ∀ r, (s.track d).reloc = some r → r.afresh = false) :
    beginAgain d s = s := by
  unfold beginAgain
  split
  · next r hr => rw [h r hr]; split <;> simp_all
  · rfl

end Sys2Proof.Machine.Laws
end

