-- ==== Sys2Proof/Laws/Chains.lean ====
section
/-! SUPPORT. The ending of a chain: a chain ends once, and counts in the drive load until it is in ENDING (R28, R37). -/

namespace Sys2Proof.Machine.Laws

/-- A context after one context has been changed. -/
theorem ctx_modCtx (c k : CtxNo) (f : Context → Context) (s : State) :
    (s.modCtx c f).ctx k = if c = k then (s.ctx c).map f else s.ctx k := get_change s.contexts c k _

/-- A chain that has ended, or is about to, does not end again. -/
theorem endChain_of_leaves {c : CtxNo} {x : Context} {s : State} (cond : Condition) (entry : Option Nat)
    (sectors : List SectorNo) (arm : State → State) (hx : s.ctx c = some x) (h : x.leaves = true) :
    endChain c cond entry sectors arm s = s := by
  simp [endChain, hx, h]

/-- A chain that has not ended goes through the first steps of its ending, and its pin and its item are put off (R37). -/
theorem endChain_of_live {c : CtxNo} {x : Context} {s : State} (cond : Condition) (entry : Option Nat)
    (sectors : List SectorNo) (arm : State → State) (hx : s.ctx c = some x) (h : x.leaves = false) :
    endChain c cond entry sectors arm s =
      (beginEnding c cond entry sectors arm s).later [.unpin c, .raiseEnding c] := by
  simp [endChain, hx, h]

/-- A change of a context that keeps its drive, and whether it is in ENDING, keeps every drive load. -/
theorem driveLoad_modCtx (c : CtxNo) (f : Context → Context) (s : State) (d : DriveNo)
    (h : ∀ x, s.ctx c = some x → (f x).drive = x.drive ∧ ((f x).state = .ending ↔ x.state = .ending)) :
    driveLoad (s.modCtx c f) d = driveLoad s d := by
  unfold driveLoad
  congr 1
  apply List.filter_congr
  intro k _
  rw [ctx_modCtx]
  by_cases e : c = k
  · subst e
    cases hx : s.ctx c with
    | none => simp
    | some x =>
      obtain ⟨hd, hs⟩ := h x hx
      simp [hd, bne, beq_eq_decide, hs]
  · simp [e]

/-- Steps 1 and 2 of R37, as far as they change the context: it still counts in the drive load. -/
theorem driveLoad_leaving (c : CtxNo) (x : Context) (e : Ending) (s : State) (d : DriveNo) (hx : s.ctx c = some x)
    (h : x.state ≠ .ending) :
    driveLoad (s.modCtx c fun y => { y with state := .waitStore .leaving, ending := some e }) d = driveLoad s d :=
  driveLoad_modCtx _ _ _ _ fun y hy => by
    rw [hx] at hy
    cases hy
    exact ⟨rfl, by simp [h]⟩

/-- What an operation puts off stands after the pieces that go ahead of it. -/
theorem work_ahead (ts : List Task) (f : State → State) (s : State) :
    (State.ahead ts f s).work = s.work ++ ts ++ (f { s with work := [] }).work := rfl

end Sys2Proof.Machine.Laws
end

