-- ==== Sys2Proof/Laws/Installation.lean ====
section
/-! SUPPORT. What internal work never touches: authority, Attach Memory, the Path Table, the pins and the queue of
commands. One equation for every operation that a command's internal work calls. -/

set_option linter.all false

namespace Sys2Proof.Machine.Laws

/-- What belongs to the installation, the attached links and the sender of commands. -/
def installation (s : State) :=
  (s.auth, s.attachMemory, s.paths, s.lineUp, s.switches, s.clearLine, s.pending)

theorem installation_each {α : Type} {f : α → State → State} (xs : List α)
    (h : ∀ x t, installation (f x t) = installation t) (s : State) : installation (each xs f s) = installation s := by
  induction xs generalizing s with
  | nil => rfl
  | cons x r ih => rw [each_cons, ih, h]

@[simp] theorem installation_modPort (l : LinkNo) (f : Port → Port) (s : State) : installation (s.modPort l f) =
    installation s := rfl

@[simp] theorem installation_modPresent (l : LinkNo) (f : Present → Present) (s : State) : installation (s.modPresent l f) =
    installation s := rfl

@[simp] theorem installation_setCtx (c : CtxNo) (x : Option Context) (s : State) : installation (s.setCtx c x) =
    installation s := rfl

@[simp] theorem installation_modCtx (c : CtxNo) (f : Context → Context) (s : State) : installation (s.modCtx c f) =
    installation s := rfl

@[simp] theorem installation_modResv (d : DriveNo) (f : Reservation → Reservation) (s : State) : installation (s.modResv d f) =
    installation s := rfl

@[simp] theorem installation_modDrive (d : DriveNo) (f : Drive → Drive) (s : State) : installation (s.modDrive d f) =
    installation s := rfl

@[simp] theorem installation_setArm (d : DriveNo) (a : ArmState) (s : State) : installation (s.setArm d a) =
    installation s := rfl

@[simp] theorem installation_modSched (d : DriveNo) (f : Scheduler → Scheduler) (s : State) : installation (s.modSched d f) =
    installation s := rfl

@[simp] theorem installation_setOrient (d : DriveNo) (o : Option Orient) (s : State) : installation (s.setOrient d o) =
    installation s := rfl

@[simp] theorem installation_modBuffer (b : BufNo) (f : Buffer → Buffer) (s : State) : installation (s.modBuffer b f) =
    installation s := rfl

@[simp] theorem installation_modTracks (d : DriveNo) (f : Tracks → Tracks) (s : State) : installation (s.modTracks d f) =
    installation s := rfl

@[simp] theorem installation_modFence (d : DriveNo) (f : Fence → Fence) (s : State) : installation (s.modFence d f) =
    installation s := rfl

@[simp] theorem installation_send (o : Output) (s : State) : installation (s.send o) =
    installation s := rfl

@[simp] theorem installation_frame (l : LinkNo) (f : HostFrame) (s : State) : installation (s.frame l f) =
    installation s := rfl

@[simp] theorem installation_order (d : DriveNo) (o : Order) (s : State) : installation (s.order d o) =
    installation s := rfl

@[simp] theorem installation_later (ts : List Task) (s : State) : installation (s.later ts) =
    installation s := rfl

theorem installation_ahead (ts : List Task) {f : State → State} (h : ∀ t, installation (f t) = installation t) (s : State) :
    installation (State.ahead ts f s) = installation s := h { s with work := [] }

@[simp] theorem installation_set_contexts (s : State) (v : Vector (Option Context) 16) : installation { s with contexts := v } =
    installation s := rfl

@[simp] theorem installation_set_ctxWait (s : State) (v : List LinkNo) : installation { s with ctxWait := v } =
    installation s := rfl

@[simp] theorem installation_set_path (s : State) (v : Path) : installation { s with path := v } =
    installation s := rfl

@[simp] theorem installation_set_lru (s : State) (v : List BufNo) : installation { s with lru := v } =
    installation s := rfl

@[simp] theorem installation_set_bufWait (s : State) (v : List Waiter) : installation { s with bufWait := v } =
    installation s := rfl

@[simp] theorem installation_set_capture (s : State) (v : Option Capture) : installation { s with capture := v } =
    installation s := rfl

@[simp] theorem installation_set_further (s : State) (v : Nat) : installation { s with further := v } =
    installation s := rfl

@[simp] theorem installation_set_suspects (s : State) (v : List Suspect) : installation { s with suspects := v } =
    installation s := rfl

@[simp] theorem installation_set_work (s : State) (v : List Task) : installation { s with work := v } =
    installation s := rfl

@[simp] theorem installation_choose (l : LinkNo) (s : State) : installation (choose l s) = installation s := by
  unfold choose
  (repeat' split) <;> (try simp [installation_each, apply_ite installation]) <;> (try intros) <;> (repeat' split) <;> (try simp [installation_each, apply_ite installation]) <;> (try rfl)

@[simp] theorem installation_goIdle (l : LinkNo) (s : State) : installation (goIdle l s) = installation s := by
  unfold goIdle
  (repeat' split) <;> (try simp [installation_each, apply_ite installation]) <;> (try intros) <;> (repeat' split) <;> (try simp [installation_each, apply_ite installation]) <;> (try rfl)

@[simp] theorem installation_setFloor (l : LinkNo) (f : Fin 16) (s : State) :
    installation (setFloor l f s) = installation s := by
  unfold setFloor
  (repeat' split) <;> (try simp [installation_each, apply_ite installation]) <;> (try intros) <;> (repeat' split) <;> (try simp [installation_each, apply_ite installation]) <;> (try rfl)

@[simp] theorem installation_setItems (l : LinkNo) (xs : List Item) (s : State) :
    installation (setItems l xs s) = installation s := by
  unfold setItems
  (repeat' split) <;> (try simp [installation_each, apply_ite installation]) <;> (try intros) <;> (repeat' split) <;> (try simp [installation_each, apply_ite installation]) <;> (try rfl)

@[simp] theorem installation_joinSet (l : LinkNo) (b : ItemBody) (s : State) :
    installation (joinSet l b s) = installation s := by
  unfold joinSet
  (repeat' split) <;> (try simp [installation_each, apply_ite installation]) <;> (try intros) <;> (repeat' split) <;> (try simp [installation_each, apply_ite installation]) <;> (try rfl)

@[simp] theorem installation_raise (l : LinkNo) (b : ItemBody) (s : State) :
    installation (raise l b s) = installation s := by
  unfold raise
  (repeat' split) <;> (try simp [installation_each, apply_ite installation]) <;> (try intros) <;> (repeat' split) <;> (try simp [installation_each, apply_ite installation]) <;> (try rfl)

@[simp] theorem installation_raiseOn (ls : List LinkNo) (b : ItemBody) (s : State) :
    installation (raiseOn ls b s) = installation s := by
  unfold raiseOn
  (repeat' split) <;> (try simp [installation_each, apply_ite installation]) <;> (try intros) <;> (repeat' split) <;> (try simp [installation_each, apply_ite installation]) <;> (try rfl)

@[simp] theorem installation_raiseDrive (d : DriveNo) (b : ItemBody) (s : State) :
    installation (raiseDrive d b s) = installation s := by
  unfold raiseDrive
  (repeat' split) <;> (try simp [installation_each, apply_ite installation]) <;> (try intros) <;> (repeat' split) <;> (try simp [installation_each, apply_ite installation]) <;> (try rfl)

@[simp] theorem installation_withdraw (l : LinkNo) (b : ItemBody) (s : State) :
    installation (withdraw l b s) = installation s := by
  unfold withdraw
  (repeat' split) <;> (try simp [installation_each, apply_ite installation]) <;> (try intros) <;> (repeat' split) <;> (try simp [installation_each, apply_ite installation]) <;> (try rfl)

@[simp] theorem installation_endLevelOn (b : ItemBody) (l : LinkNo) (s : State) :
    installation (endLevelOn b l s) = installation s := by
  unfold endLevelOn
  (repeat' split) <;> (try simp [installation_each, apply_ite installation]) <;> (try intros) <;> (repeat' split) <;> (try simp [installation_each, apply_ite installation]) <;> (try rfl)

@[simp] theorem installation_endLevel (b : ItemBody) (s : State) : installation (endLevel b s) = installation s := by
  unfold endLevel
  (repeat' split) <;> (try simp [installation_each, apply_ite installation]) <;> (try intros) <;> (repeat' split) <;> (try simp [installation_each, apply_ite installation]) <;> (try rfl)

@[simp] theorem installation_returnItem (l : LinkNo) (i : Item) (s : State) :
    installation (returnItem l i s) = installation s := by
  unfold returnItem
  (repeat' split) <;> (try simp [installation_each, apply_ite installation]) <;> (try intros) <;> (repeat' split) <;> (try simp [installation_each, apply_ite installation]) <;> (try rfl)

@[simp] theorem installation_putOff (l : LinkNo) (s : State) : installation (putOff l s) = installation s := by
  unfold putOff
  (repeat' split) <;> (try simp [installation_each, apply_ite installation]) <;> (try intros) <;> (repeat' split) <;> (try simp [installation_each, apply_ite installation]) <;> (try rfl)

@[simp] theorem installation_clearSet (l : LinkNo) (s : State) : installation (clearSet l s) = installation s := by
  unfold clearSet
  (repeat' split) <;> (try simp [installation_each, apply_ite installation]) <;> (try intros) <;> (repeat' split) <;> (try simp [installation_each, apply_ite installation]) <;> (try rfl)

@[simp] theorem installation_controllerFree (s : State) : installation (controllerFree s) = installation s := by
  unfold controllerFree
  (repeat' split) <;> (try simp [installation_each, apply_ite installation]) <;> (try intros) <;> (repeat' split) <;> (try simp [installation_each, apply_ite installation]) <;> (try rfl)

@[simp] theorem installation_freeCtx (c : CtxNo) (s : State) : installation (freeCtx c s) = installation s := by
  unfold freeCtx
  (repeat' split) <;> (try simp [installation_each, apply_ite installation]) <;> (try intros) <;> (repeat' split) <;> (try simp [installation_each, apply_ite installation]) <;> (try rfl)

@[simp] theorem installation_dataLost (b : BufNo) (xs : List SectorNo) (s : State) :
    installation (dataLost b xs s) = installation s := by
  unfold dataLost
  (repeat' split) <;> (try simp [installation_each, apply_ite installation]) <;> (try intros) <;> (repeat' split) <;> (try simp [installation_each, apply_ite installation]) <;> (try rfl)

@[simp] theorem installation_handOff (d : DriveNo) (s : State) : installation (handOff d s) = installation s := by
  unfold handOff
  (repeat' split) <;> (try simp [installation_each, apply_ite installation]) <;> (try intros) <;> (repeat' split) <;> (try simp [installation_each, apply_ite installation]) <;> (try rfl)

@[simp] theorem installation_clearHolder (d : DriveNo) (s : State) :
    installation (clearHolder d s) = installation s := by
  unfold clearHolder
  (repeat' split) <;> (try simp [installation_each, apply_ite installation]) <;> (try intros) <;> (repeat' split) <;> (try simp [installation_each, apply_ite installation]) <;> (try rfl)

@[simp] theorem installation_leaveWait (l : LinkNo) (d : DriveNo) (s : State) :
    installation (leaveWait l d s) = installation s := by
  unfold leaveWait
  (repeat' split) <;> (try simp [installation_each, apply_ite installation]) <;> (try intros) <;> (repeat' split) <;> (try simp [installation_each, apply_ite installation]) <;> (try rfl)

@[simp] theorem installation_reserve (l : LinkNo) (d : DriveNo) (wait : Bool) (s : State) :
    installation (reserve l d wait s) = installation s := by
  unfold reserve
  (repeat' split) <;> (try simp [installation_each, apply_ite installation]) <;> (try intros) <;> (repeat' split) <;> (try simp [installation_each, apply_ite installation]) <;> (try rfl)

@[simp] theorem installation_release (l : LinkNo) (d : DriveNo) (s : State) :
    installation (release l d s) = installation s := by
  unfold release
  (repeat' split) <;> (try simp [installation_each, apply_ite installation]) <;> (try intros) <;> (repeat' split) <;> (try simp [installation_each, apply_ite installation]) <;> (try rfl)

@[simp] theorem installation_takeAway (l : LinkNo) (d : DriveNo) (s : State) :
    installation (takeAway l d s) = installation s := by
  unfold takeAway
  (repeat' split) <;> (try simp [installation_each, apply_ite installation]) <;> (try intros) <;> (repeat' split) <;> (try simp [installation_each, apply_ite installation]) <;> (try rfl)

@[simp] theorem installation_losePath (l : LinkNo) (d : DriveNo) (s : State) :
    installation (losePath l d s) = installation s := by
  unfold losePath
  (repeat' split) <;> (try simp [installation_each, apply_ite installation]) <;> (try intros) <;> (repeat' split) <;> (try simp [installation_each, apply_ite installation]) <;> (try rfl)

@[simp] theorem installation_loseReservation (l : LinkNo) (d : DriveNo) (s : State) :
    installation (loseReservation l d s) = installation s := by
  unfold loseReservation
  (repeat' split) <;> (try simp [installation_each, apply_ite installation]) <;> (try intros) <;> (repeat' split) <;> (try simp [installation_each, apply_ite installation]) <;> (try rfl)

@[simp] theorem installation_loseReservations (l : LinkNo) (s : State) :
    installation (loseReservations l s) = installation s := by
  unfold loseReservations
  (repeat' split) <;> (try simp [installation_each, apply_ite installation]) <;> (try intros) <;> (repeat' split) <;> (try simp [installation_each, apply_ite installation]) <;> (try rfl)

@[simp] theorem installation_joinQueue (d : DriveNo) (w : Work) (home : HomeTrack) (s : State) :
    installation (joinQueue d w home s) = installation s := by
  unfold joinQueue
  (repeat' split) <;> (try simp [installation_each, apply_ite installation]) <;> (try intros) <;> (repeat' split) <;> (try simp [installation_each, apply_ite installation]) <;> (try rfl)

@[simp] theorem installation_leaveQueue (d : DriveNo) (w : Work) (s : State) :
    installation (leaveQueue d w s) = installation s := by
  unfold leaveQueue
  (repeat' split) <;> (try simp [installation_each, apply_ite installation]) <;> (try intros) <;> (repeat' split) <;> (try simp [installation_each, apply_ite installation]) <;> (try rfl)

@[simp] theorem installation_giveItem (b : BufNo) (s : State) : installation (giveItem b s) = installation s := by
  unfold giveItem
  (repeat' split) <;> (try simp [installation_each, apply_ite installation]) <;> (try intros) <;> (repeat' split) <;> (try simp [installation_each, apply_ite installation]) <;> (try rfl)

@[simp] theorem installation_joinTogether (bs : List BufNo) (s : State) :
    installation (joinTogether bs s) = installation s := installation_each bs (fun b t => installation_giveItem b t) s

@[simp] theorem installation_joinInTurn (bs : List BufNo) (s : State) :
    installation (joinInTurn bs s) = installation s := by
  refine installation_each bs (fun b t => ?_) s
  split <;> simp

@[simp] theorem installation_flushItems (d : DriveNo) (s : State) :
    installation (flushItems d s) = installation s := by
  unfold flushItems
  (repeat' split) <;> (try simp [installation_each, apply_ite installation]) <;> (try intros) <;> (repeat' split) <;> (try simp [installation_each, apply_ite installation]) <;> (try rfl)

theorem installation_throughItems {join : List BufNo → State → State}
    (h : ∀ bs t, installation (join bs t) = installation t) (d : DriveNo) (s : State) :
    installation (throughItems join d s) = installation s := h _ s

@[simp] theorem installation_reclaim (s : State) : installation (reclaim s) = installation s := by
  unfold reclaim
  (repeat' split) <;> (try simp [installation_each, apply_ite installation]) <;> (try intros) <;> (repeat' split) <;> (try simp [installation_each, apply_ite installation]) <;> (try rfl)

@[simp] theorem installation_unlist (gone : Waiter → Bool) (s : State) :
    installation (unlist gone s) = installation s := rfl

@[simp] theorem installation_reclaimCheck (s : State) : installation (reclaimCheck s) = installation s := by
  unfold reclaimCheck
  (repeat' split) <;> (try simp [installation_each, apply_ite installation]) <;> (try intros) <;> (repeat' split) <;> (try simp [installation_each, apply_ite installation]) <;> (try rfl)

@[simp] theorem installation_touch (b : BufNo) (s : State) : installation (touch b s) = installation s := by
  unfold touch
  (repeat' split) <;> (try simp [installation_each, apply_ite installation]) <;> (try intros) <;> (repeat' split) <;> (try simp [installation_each, apply_ite installation]) <;> (try rfl)

@[simp] theorem installation_emptyBuffer (b : BufNo) (s : State) :
    installation (emptyBuffer b s) = installation s := by
  unfold emptyBuffer
  (repeat' split) <;> (try simp [installation_each, apply_ite installation]) <;> (try intros) <;> (repeat' split) <;> (try simp [installation_each, apply_ite installation]) <;> (try rfl)

@[simp] theorem installation_suspendCtx (c : CtxNo) (s : State) : installation (suspendCtx c s) = installation s := by
  unfold suspendCtx
  (repeat' split) <;> (try simp [installation_each, apply_ite installation]) <;> (try intros) <;> (repeat' split) <;> (try simp [installation_each, apply_ite installation]) <;> (try rfl)

@[simp] theorem installation_suspendStaging (b : BufNo) (s : State) :
    installation (suspendStaging b s) = installation s := by
  unfold suspendStaging
  (repeat' split) <;> (try simp [installation_each, apply_ite installation]) <;> (try intros) <;> (repeat' split) <;> (try simp [installation_each, apply_ite installation]) <;> (try rfl)

@[simp] theorem installation_stage (c : CtxNo) (s : State) : installation (stage c s) = installation s := by
  unfold stage
  (repeat' split) <;> (try simp [installation_each, apply_ite installation]) <;> (try intros) <;> (repeat' split) <;> (try simp [installation_each, apply_ite installation]) <;> (try rfl)

@[simp] theorem installation_resumeStaging (b : BufNo) (s : State) :
    installation (resumeStaging b s) = installation s := by
  unfold resumeStaging
  (repeat' split) <;> (try simp [installation_each, apply_ite installation]) <;> (try intros) <;> (repeat' split) <;> (try simp [installation_each, apply_ite installation]) <;> (try rfl)

@[simp] theorem installation_assign (who : Requester) (d : DriveNo) (b : BufNo) (s : State) :
    installation (assign who d b s) = installation s := by
  unfold assign
  (repeat' split) <;> (try simp [installation_each, apply_ite installation]) <;> (try intros) <;> (repeat' split) <;> (try simp [installation_each, apply_ite installation]) <;> (try rfl)

theorem installation_allocate (w : Waiter) (s t : State) (h : allocate w s = some t) :
    installation t = installation s := by
  unfold allocate at h
  (repeat' split at h) <;> first | (injection h with h; subst h; simp) | cases h

@[simp] theorem installation_request (w : Waiter) (s : State) : installation (request w s) = installation s := by
  unfold request
  split
  · next t h => exact installation_allocate w s t h
  · exact (installation_reclaim _).trans rfl

@[simp] theorem installation_serveWaiter (w : Waiter) (s : State) :
    installation (serveWaiter w s) = installation s := by
  unfold serveWaiter
  cases h : allocate w s with
  | none => rfl
  | some t => exact installation_allocate w s t h

@[simp] theorem installation_serveTimes (n : Nat) : ∀ s : State, installation (serveTimes n s) = installation s := by
  induction n with
  | zero => exact fun s => rfl
  | succ n ih =>
    intro s
    unfold serveTimes
    split
    · rfl
    · split
      · rw [ih, installation_each _ installation_serveWaiter]; rfl
      · rfl

@[simp] theorem installation_serve (s : State) : installation (serve s) = installation s := installation_serveTimes _ s

@[simp] theorem installation_flushTest (d : DriveNo) (s : State) : installation (flushTest d s) = installation s := by
  unfold flushTest
  split
  · rfl
  · apply installation_each
    intro c t
    rfl

@[simp] theorem installation_emptyOf (d : DriveNo) (b : BufNo) (s : State) :
    installation (emptyOf d b s) = installation s := by
  unfold emptyOf
  simp

@[simp] theorem installation_retainRule (b : BufNo) (s : State) : installation (retainRule b s) = installation s := by
  unfold retainRule
  (repeat' split) <;> (try simp [installation_each, apply_ite installation]) <;> (try intros) <;> (repeat' split) <;> (try simp [installation_each, apply_ite installation]) <;> (try rfl)

@[simp] theorem installation_afterUnpin (b : BufNo) (s : State) : installation (afterUnpin b s) = installation s := by
  unfold afterUnpin
  (repeat' split) <;> (try simp [installation_each, apply_ite installation]) <;> (try intros) <;> (repeat' split) <;> (try simp [installation_each, apply_ite installation]) <;> (try rfl)

@[simp] theorem installation_leftDirty (b : BufNo) (s : State) : installation (leftDirty b s) = installation s := by
  unfold leftDirty
  (repeat' split) <;> (try simp [installation_each, apply_ite installation]) <;> (try intros) <;> (repeat' split) <;> (try simp [installation_each, apply_ite installation]) <;> (try rfl)

@[simp] theorem installation_noteStored (b : BufNo) (x : SectorNo) (s : State) :
    installation (noteStored b x s) = installation s := by
  unfold noteStored
  (repeat' split) <;> (try simp [installation_each, apply_ite installation]) <;> (try intros) <;> (repeat' split) <;> (try simp [installation_each, apply_ite installation]) <;> (try rfl)

@[simp] theorem installation_storeCell (b : BufNo) (x : SectorNo) (data : List Byte) (dirty : Bool) (s : State) :
    installation (storeCell b x data dirty s) = installation s := by
  unfold storeCell
  (repeat' split) <;> (try simp [installation_each, apply_ite installation]) <;> (try intros) <;> (repeat' split) <;> (try simp [installation_each, apply_ite installation]) <;> (try rfl)

@[simp] theorem installation_storeFrame (l : LinkNo) (b : BufNo) (x : SectorNo) (data : List Byte) (s : State) :
    installation (storeFrame l b x data s) = installation s := by
  unfold storeFrame
  (repeat' split) <;> (try simp [installation_each, apply_ite installation]) <;> (try intros) <;> (repeat' split) <;> (try simp [installation_each, apply_ite installation]) <;> (try rfl)

@[simp] theorem installation_cleanSector (b : BufNo) (x : SectorNo) (s : State) :
    installation (cleanSector b x s) = installation s := by
  unfold cleanSector
  (repeat' split) <;> (try simp [installation_each, apply_ite installation]) <;> (try intros) <;> (repeat' split) <;> (try simp [installation_each, apply_ite installation]) <;> (try rfl)

@[simp] theorem installation_capture (k : Capture) (s : State) : installation (capture k s) = installation s := by
  unfold capture
  (repeat' split) <;> (try simp [installation_each, apply_ite installation]) <;> (try intros) <;> (repeat' split) <;> (try simp [installation_each, apply_ite installation]) <;> (try rfl)

@[simp] theorem installation_parityFailure (b : BufNo) (x : SectorNo) (toDrive : Bool) (by_ : CaptureBy) (s : State) :
    installation (parityFailure b x toDrive by_ s) = installation s := by
  unfold parityFailure
  (repeat' split) <;> (try simp [installation_each, apply_ite installation]) <;> (try intros) <;> (repeat' split) <;> (try simp [installation_each, apply_ite installation]) <;> (try rfl)

@[simp] theorem installation_unpin (c : CtxNo) (s : State) : installation (unpin c s) = installation s := by
  unfold unpin
  (repeat' split) <;> (try simp [installation_each, apply_ite installation]) <;> (try intros) <;> (repeat' split) <;> (try simp [installation_each, apply_ite installation]) <;> (try rfl)

@[simp] theorem installation_clearRelocPin (b : BufNo) (s : State) :
    installation (clearRelocPin b s) = installation s := by
  unfold clearRelocPin
  (repeat' split) <;> (try simp [installation_each, apply_ite installation]) <;> (try intros) <;> (repeat' split) <;> (try simp [installation_each, apply_ite installation]) <;> (try rfl)

@[simp] theorem installation_destageEnded (d : DriveNo) (b : BufNo) (s : State) :
    installation (destageEnded d b s) = installation s := by
  unfold destageEnded
  (repeat' split) <;> (try simp [installation_each, apply_ite installation]) <;> (try intros) <;> (repeat' split) <;> (try simp [installation_each, apply_ite installation]) <;> (try rfl)

@[simp] theorem installation_destageStopped (b : BufNo) (s : State) :
    installation (destageStopped b s) = installation s := by
  unfold destageStopped
  (repeat' split) <;> (try simp [installation_each, apply_ite installation]) <;> (try intros) <;> (repeat' split) <;> (try simp [installation_each, apply_ite installation]) <;> (try rfl)

@[simp] theorem installation_evalSpares (d : DriveNo) (s : State) :
    installation (evalSpares d s) = installation s := by
  unfold evalSpares
  (repeat' split) <;> (try simp [installation_each, apply_ite installation]) <;> (try intros) <;> (repeat' split) <;> (try simp [installation_each, apply_ite installation]) <;> (try rfl)

@[simp] theorem installation_endSparesLow (d : DriveNo) (s : State) :
    installation (endSparesLow d s) = installation s := by
  unfold endSparesLow
  (repeat' split) <;> (try simp [installation_each, apply_ite installation]) <;> (try intros) <;> (repeat' split) <;> (try simp [installation_each, apply_ite installation]) <;> (try rfl)

@[simp] theorem installation_staleMapCursors (d : DriveNo) (s : State) :
    installation (staleMapCursors d s) = installation s := by
  unfold staleMapCursors
  (repeat' split) <;> (try simp [installation_each, apply_ite installation]) <;> (try intros) <;> (repeat' split) <;> (try simp [installation_each, apply_ite installation]) <;> (try rfl)

@[simp] theorem installation_staleSuspectCursors (s : State) :
    installation (staleSuspectCursors s) = installation s := by
  unfold staleSuspectCursors
  (repeat' split) <;> (try simp [installation_each, apply_ite installation]) <;> (try intros) <;> (repeat' split) <;> (try simp [installation_each, apply_ite installation]) <;> (try rfl)

@[simp] theorem installation_removeSuspects (gone : Suspect → Bool) (s : State) :
    installation (removeSuspects gone s) = installation s := by
  unfold removeSuspects
  (repeat' split) <;> (try simp [installation_each, apply_ite installation]) <;> (try intros) <;> (repeat' split) <;> (try simp [installation_each, apply_ite installation]) <;> (try rfl)

@[simp] theorem installation_modSuspect (d : DriveNo) (h : HomeTrack) (f : Suspect → Suspect) (s : State) :
    installation (modSuspect d h f s) = installation s := by
  unfold modSuspect
  (repeat' split) <;> (try simp [installation_each, apply_ite installation]) <;> (try intros) <;> (repeat' split) <;> (try simp [installation_each, apply_ite installation]) <;> (try rfl)

@[simp] theorem installation_report (d : DriveNo) (h : HomeTrack) (s : State) :
    installation (report d h s) = installation s := by
  unfold report
  (repeat' split) <;> (try simp [installation_each, apply_ite installation]) <;> (try intros) <;> (repeat' split) <;> (try simp [installation_each, apply_ite installation]) <;> (try rfl)

@[simp] theorem installation_threshold (d : DriveNo) (h : HomeTrack) (s : State) :
    installation (threshold d h s) = installation s := by
  unfold threshold
  (repeat' split) <;> (try simp [installation_each, apply_ite installation]) <;> (try intros) <;> (repeat' split) <;> (try simp [installation_each, apply_ite installation]) <;> (try rfl)

@[simp] theorem installation_recordFree (d : DriveNo) (s : State) :
    installation (recordFree d s) = installation s := by
  unfold recordFree
  (repeat' split) <;> (try simp [installation_each, apply_ite installation]) <;> (try intros) <;> (repeat' split) <;> (try simp [installation_each, apply_ite installation]) <;> (try rfl)

@[simp] theorem installation_relocOutcome (d : DriveNo) (h : HomeTrack) (o : RelocOutcome) (s : State) :
    installation (relocOutcome d h o s) = installation s := by
  unfold relocOutcome
  (repeat' split) <;> (try simp [installation_each, apply_ite installation]) <;> (try intros) <;> (repeat' split) <;> (try simp [installation_each, apply_ite installation]) <;> (try rfl)

@[simp] theorem installation_setSpare (d : DriveNo) (i : SpareNo) (k : SpareState) (s : State) :
    installation (setSpare d i k s) = installation s := by
  unfold setSpare
  (repeat' split) <;> (try simp [installation_each, apply_ite installation]) <;> (try intros) <;> (repeat' split) <;> (try simp [installation_each, apply_ite installation]) <;> (try rfl)

@[simp] theorem installation_modReloc (d : DriveNo) (f : Relocation → Relocation) (s : State) :
    installation (modReloc d f s) = installation s := by
  unfold modReloc
  (repeat' split) <;> (try simp [installation_each, apply_ite installation]) <;> (try intros) <;> (repeat' split) <;> (try simp [installation_each, apply_ite installation]) <;> (try rfl)

@[simp] theorem installation_removeRecord (d : DriveNo) (r : Relocation) (s : State) :
    installation (removeRecord d r s) = installation s := by
  unfold removeRecord
  (repeat' split) <;> (try simp [installation_each, apply_ite installation]) <;> (try intros) <;> (repeat' split) <;> (try simp [installation_each, apply_ite installation]) <;> (try rfl)

@[simp] theorem installation_createRelocation (d : DriveNo) (h : HomeTrack) (s : State) :
    installation (createRelocation d h s) = installation s := by
  unfold createRelocation
  (repeat' split) <;> (try simp [installation_each, apply_ite installation]) <;> (try intros) <;> (repeat' split) <;> (try simp [installation_each, apply_ite installation]) <;> (try rfl)

@[simp] theorem installation_beginReadOld (d : DriveNo) (b : BufNo) (s : State) :
    installation (beginReadOld d b s) = installation s := rfl

@[simp] theorem installation_beginAgain (d : DriveNo) (s : State) : installation (beginAgain d s) = installation s := by
  unfold beginAgain
  (repeat' split) <;> simp

@[simp] theorem installation_holdBuffer (d : DriveNo) (s : State) :
    installation (holdBuffer d s) = installation s := by
  unfold holdBuffer
  (repeat' split) <;> (try simp [installation_each, apply_ite installation]) <;> (try intros) <;> (repeat' split) <;> (try simp [installation_each, apply_ite installation]) <;> (try rfl)

@[simp] theorem installation_relocFailed (d : DriveNo) (r : Relocation) (s : State) :
    installation (relocFailed d r s) = installation s := by
  unfold relocFailed
  (repeat' split) <;> (try simp [installation_each, apply_ite installation]) <;> (try intros) <;> (repeat' split) <;> (try simp [installation_each, apply_ite installation]) <;> (try rfl)

@[simp] theorem installation_takeSpare (d : DriveNo) (s : State) : installation (takeSpare d s) = installation s := by
  unfold takeSpare
  (repeat' split) <;> (try simp [installation_each, apply_ite installation]) <;> (try intros) <;> (repeat' split) <;> (try simp [installation_each, apply_ite installation]) <;> (try rfl)

@[simp] theorem installation_readOldEnds (d : DriveNo) (left : List SectorNo) (s : State) :
    installation (readOldEnds d left s) = installation s := by
  unfold readOldEnds
  (repeat' split) <;> (try simp [installation_each, apply_ite installation]) <;> (try intros) <;> (repeat' split) <;> (try simp [installation_each, apply_ite installation]) <;> (try rfl)

@[simp] theorem installation_spareFails (d : DriveNo) (s : State) :
    installation (spareFails d s) = installation s := by
  unfold spareFails
  (repeat' split) <;> (try simp [installation_each, apply_ite installation]) <;> (try intros) <;> (repeat' split) <;> (try simp [installation_each, apply_ite installation]) <;> (try rfl)

@[simp] theorem installation_writeNewEnds (d : DriveNo) (s : State) :
    installation (writeNewEnds d s) = installation s := by
  unfold writeNewEnds
  (repeat' split) <;> (try simp [installation_each, apply_ite installation]) <;> (try intros) <;> (repeat' split) <;> (try simp [installation_each, apply_ite installation]) <;> (try rfl)

@[simp] theorem installation_commit (d : DriveNo) (s : State) : installation (commit d s) = installation s := by
  unfold commit
  (repeat' split) <;> (try simp [installation_each, apply_ite installation]) <;> (try intros) <;> (repeat' split) <;> (try simp [installation_each, apply_ite installation]) <;> (try rfl)

@[simp] theorem installation_abandon (d : DriveNo) (s : State) : installation (abandon d s) = installation s := by
  unfold abandon
  (repeat' split) <;> (try simp [installation_each, apply_ite installation]) <;> (try intros) <;> (repeat' split) <;> (try simp [installation_each, apply_ite installation]) <;> (try rfl)

@[simp] theorem installation_written (d : DriveNo) (h : HomeTrack) (x : SectorNo) (s : State) :
    installation (written d h x s) = installation s := by
  unfold written
  (repeat' split) <;> (try simp [installation_each, apply_ite installation]) <;> (try intros) <;> (repeat' split) <;> (try simp [installation_each, apply_ite installation]) <;> (try rfl)

@[simp] theorem installation_startRecal (d : DriveNo) (why : RecalReason) (s : State) :
    installation (startRecal d why s) = installation s := by
  unfold startRecal
  (repeat' split) <;> (try simp [installation_each, apply_ite installation]) <;> (try intros) <;> (repeat' split) <;> (try simp [installation_each, apply_ite installation]) <;> (try rfl)

@[simp] theorem installation_cancelBooking (d : DriveNo) (s : State) :
    installation (cancelBooking d s) = installation s := by
  unfold cancelBooking
  (repeat' split) <;> (try simp [installation_each, apply_ite installation]) <;> (try intros) <;> (repeat' split) <;> (try simp [installation_each, apply_ite installation]) <;> (try rfl)

@[simp] theorem installation_clearGrant (d : DriveNo) (s : State) :
    installation (clearGrant d s) = installation s := by
  unfold clearGrant
  (repeat' split) <;> (try simp [installation_each, apply_ite installation]) <;> (try intros) <;> (repeat' split) <;> (try simp [installation_each, apply_ite installation]) <;> (try rfl)

@[simp] theorem installation_dropSelection (d : DriveNo) (s : State) :
    installation (dropSelection d s) = installation s := by
  unfold dropSelection
  (repeat' split) <;> (try simp [installation_each, apply_ite installation]) <;> (try intros) <;> (repeat' split) <;> (try simp [installation_each, apply_ite installation]) <;> (try rfl)

theorem installation_applyPolicy {join : List BufNo → State → State}
    (h : ∀ bs t, installation (join bs t) = installation t) (d : DriveNo) (s : State) :
    installation (applyPolicy join d s) = installation s := by
  unfold applyPolicy
  (repeat' split) <;> simp [installation_throughItems h, apply_ite installation]

@[simp] theorem installation_applyPolicy_together (d : DriveNo) (s : State) :
    installation (applyPolicy joinTogether d s) = installation s := installation_applyPolicy installation_joinTogether d s

@[simp] theorem installation_applyPolicy_inTurn (d : DriveNo) (s : State) :
    installation (applyPolicy joinInTurn d s) = installation s := installation_applyPolicy installation_joinInTurn d s

@[simp] theorem installation_enterIdle (d : DriveNo) (s : State) : installation (enterIdle d s) = installation s := by
  unfold enterIdle
  (repeat' split) <;> (try simp [installation_each, apply_ite installation]) <;> (try intros) <;> (repeat' split) <;> (try simp [installation_each, apply_ite installation]) <;> (try rfl)

@[simp] theorem installation_armIdle (d : DriveNo) (s : State) : installation (armIdle d s) = installation s := by
  unfold armIdle
  (repeat' split) <;> (try simp [installation_each, apply_ite installation]) <;> (try intros) <;> (repeat' split) <;> (try simp [installation_each, apply_ite installation]) <;> (try rfl)

@[simp] theorem installation_givePasses (d : DriveNo) (i : QueueItem) (s : State) :
    installation (givePasses d i s) = installation s := by
  unfold givePasses
  (repeat' split) <;> (try simp [installation_each, apply_ite installation]) <;> (try intros) <;> (repeat' split) <;> (try simp [installation_each, apply_ite installation]) <;> (try rfl)

@[simp] theorem installation_orientTo (d : DriveNo) (o : Orient) (s : State) :
    installation (orientTo d o s) = installation s := by
  unfold orientTo
  (repeat' split) <;> (try simp [installation_each, apply_ite installation]) <;> (try intros) <;> (repeat' split) <;> (try simp [installation_each, apply_ite installation]) <;> (try rfl)

@[simp] theorem installation_endDestage (d : DriveNo) (b : BufNo) (s : State) :
    installation (endDestage d b s) = installation s := by
  unfold endDestage; rw [installation_ahead _ (installation_armIdle d)]
  (repeat' split) <;> (try simp [installation_each, apply_ite installation]) <;> (try intros) <;> (repeat' split) <;> (try simp [installation_each, apply_ite installation]) <;> (try rfl)

@[simp] theorem installation_destageNext (d : DriveNo) (b : BufNo) (home : HomeTrack) (after : Option SectorNo) (s : State) :
    installation (destageNext d b home after s) = installation s := by
  unfold destageNext
  (repeat' split) <;> (try simp [installation_each, apply_ite installation]) <;> (try intros) <;> (repeat' split) <;> (try simp [installation_each, apply_ite installation]) <;> (try rfl)

@[simp] theorem installation_relocArrives (d : DriveNo) (phase : RelocPhase) (s : State) :
    installation (relocArrives d phase s) = installation s := by
  unfold relocArrives
  (repeat' split) <;> (try simp [installation_each, apply_ite installation]) <;> (try intros) <;> (repeat' split) <;> (try simp [installation_each, apply_ite installation]) <;> (try rfl)

@[simp] theorem installation_arrived (d : DriveNo) (s : State) : installation (arrived d s) = installation s := by
  unfold arrived
  (repeat' split) <;> (try simp [installation_each, apply_ite installation]) <;> (try intros) <;> (repeat' split) <;> (try simp [installation_each, apply_ite installation]) <;> (try rfl)

@[simp] theorem installation_startSeek (d : DriveNo) (s : State) : installation (startSeek d s) = installation s := by
  unfold startSeek
  (repeat' split) <;> (try simp [installation_each, apply_ite installation]) <;> (try intros) <;> (repeat' split) <;> (try simp [installation_each, apply_ite installation]) <;> (try rfl)

@[simp] theorem installation_engage (d : DriveNo) (w : Work) (s : State) :
    installation (engage d w s) = installation s := by
  unfold engage
  (repeat' split) <;> (try simp [installation_each, apply_ite installation]) <;> (try intros) <;> (repeat' split) <;> (try simp [installation_each, apply_ite installation]) <;> (try rfl)

@[simp] theorem installation_selectItem (d : DriveNo) (cur : Fin 604) (i : QueueItem) (s : State) :
    installation (selectItem d cur i s) = installation s := by
  unfold selectItem
  (repeat' split) <;> (try simp [installation_each, apply_ite installation]) <;> (try intros) <;> (repeat' split) <;> (try simp [installation_each, apply_ite installation]) <;> (try rfl)

@[simp] theorem installation_select (d : DriveNo) (s : State) : installation (select d s) = installation s := by
  unfold select
  (repeat' split) <;> (try simp [installation_each, apply_ite installation]) <;> (try intros) <;> (repeat' split) <;> (try simp [installation_each, apply_ite installation]) <;> (try rfl)

@[simp] theorem installation_settleEnds (d : DriveNo) (s : State) :
    installation (settleEnds d s) = installation s := by
  unfold settleEnds
  (repeat' split) <;> (try simp [installation_each, apply_ite installation]) <;> (try intros) <;> (repeat' split) <;> (try simp [installation_each, apply_ite installation]) <;> (try rfl)

@[simp] theorem installation_settleTick (d : DriveNo) (s : State) :
    installation (settleTick d s) = installation s := by
  unfold settleTick
  (repeat' split) <;> (try simp [installation_each, apply_ite installation]) <;> (try intros) <;> (repeat' split) <;> (try simp [installation_each, apply_ite installation]) <;> (try rfl)

@[simp] theorem installation_destageCut (d : DriveNo) (k : Selection) (b : BufNo) (s : State) :
    installation (destageCut d k b s) = installation s := by
  unfold destageCut
  (repeat' split) <;> (try simp [installation_each, apply_ite installation]) <;> (try intros) <;> (repeat' split) <;> (try simp [installation_each, apply_ite installation]) <;> (try rfl)

@[simp] theorem installation_withdrawFrom (c : CtxNo) (x : Context) (s : State) :
    installation (withdrawFrom c x s) = installation s := by
  unfold withdrawFrom
  (repeat' split) <;> (try simp [installation_each, apply_ite installation]) <;> (try intros) <;> (repeat' split) <;> (try simp [installation_each, apply_ite installation]) <;> (try rfl)

@[simp] theorem installation_beginEnding (c : CtxNo) (cond : Condition) (entry : Option Nat) (sectors : List SectorNo)
    (arm : State → State) (s : State) (h : ∀ t, installation (arm t) = installation t) :
    installation (beginEnding c cond entry sectors arm s) = installation s := by
  unfold beginEnding
  (repeat' split) <;> simp [h, apply_ite installation]

@[simp] theorem installation_endChain (c : CtxNo) (cond : Condition) (entry : Option Nat) (sectors : List SectorNo)
    (arm : State → State) (s : State) (h : ∀ t, installation (arm t) = installation t) :
    installation (endChain c cond entry sectors arm s) = installation s := by
  unfold endChain
  (repeat' split) <;> simp [h, apply_ite installation]

@[simp] theorem installation_raiseEnding (c : CtxNo) (s : State) :
    installation (raiseEnding c s) = installation s := by
  unfold raiseEnding
  (repeat' split) <;> (try simp [installation_each, apply_ite installation]) <;> (try intros) <;> (repeat' split) <;> (try simp [installation_each, apply_ite installation]) <;> (try rfl)

@[simp] theorem installation_endAtEntry (c : CtxNo) (cond : Condition) (sectors : List SectorNo) (s : State) :
    installation (endAtEntry c cond sectors s) = installation s := by
  unfold endAtEntry
  (repeat' split) <;> (try simp [installation_each, apply_ite installation]) <;> (try intros) <;> (repeat' split) <;> (try simp [installation_each, apply_ite installation]) <;> (try rfl)

@[simp] theorem installation_detachArm (d : DriveNo) (s : State) : installation (detachArm d s) = installation s := by
  unfold detachArm
  (repeat' split) <;> (try simp [installation_each, apply_ite installation]) <;> (try intros) <;> (repeat' split) <;> (try simp [installation_each, apply_ite installation]) <;> (try rfl)

@[simp] theorem installation_withdrawQuietly (c : CtxNo) (s : State) :
    installation (withdrawQuietly c s) = installation s := by
  unfold withdrawQuietly
  (repeat' split) <;> simp

@[simp] theorem installation_freeWithdrawn (c : CtxNo) (s : State) :
    installation (freeWithdrawn c s) = installation s := installation_withdrawQuietly c s

@[simp] theorem installation_freeContext (c : CtxNo) (s : State) :
    installation (freeContext c s) = installation s := by
  unfold freeContext
  (repeat' split) <;> (try simp [installation_each, apply_ite installation]) <;> (try intros) <;> (repeat' split) <;> (try simp [installation_each, apply_ite installation]) <;> (try rfl)

@[simp] theorem installation_giveUpArm (c : CtxNo) (x : Context) (s : State) :
    installation (giveUpArm c x s) = installation s := by
  unfold giveUpArm
  (repeat' split) <;> (try simp [installation_each, apply_ite installation]) <;> (try intros) <;> (repeat' split) <;> (try simp [installation_each, apply_ite installation]) <;> (try rfl)

@[simp] theorem installation_needArm (c : CtxNo) (x : Context) (s : State) :
    installation (needArm c x s) = installation s := by
  unfold needArm
  (repeat' split) <;> (try simp [installation_each, apply_ite installation]) <;> (try intros) <;> (repeat' split) <;> (try simp [installation_each, apply_ite installation]) <;> (try rfl)

@[simp] theorem installation_advance (c : CtxNo) (s : State) : installation (advance c s) = installation s := by
  unfold advance
  (repeat' split) <;> (try simp [installation_each, apply_ite installation]) <;> (try intros) <;> (repeat' split) <;> (try simp [installation_each, apply_ite installation]) <;> (try rfl)

@[simp] theorem installation_walkRead (c : CtxNo) (x : Context) (first : SectorNo) (count : Nat) (s : State) :
    installation (walkRead c x first count s) = installation s := by
  unfold walkRead
  (repeat' split) <;> (try simp [installation_each, apply_ite installation]) <;> (try intros) <;> (repeat' split) <;> (try simp [installation_each, apply_ite installation]) <;> (try rfl)

@[simp] theorem installation_walkWrite (c : CtxNo) (x : Context) (first : SectorNo) (count : Nat) (s : State) :
    installation (walkWrite c x first count s) = installation s := by
  unfold walkWrite
  (repeat' split) <;> (try simp [installation_each, apply_ite installation]) <;> (try intros) <;> (repeat' split) <;> (try simp [installation_each, apply_ite installation]) <;> (try rfl)

@[simp] theorem installation_walk (c : CtxNo) (s : State) : installation (walk c s) = installation s := by
  unfold walk
  (repeat' split) <;> (try simp [installation_each, apply_ite installation]) <;> (try intros) <;> (repeat' split) <;> (try simp [installation_each, apply_ite installation]) <;> (try rfl)

@[simp] theorem installation_startStep (c : CtxNo) (s : State) : installation (startStep c s) = installation s := by
  unfold startStep
  (repeat' split) <;> (try simp [installation_each, apply_ite installation]) <;> (try intros) <;> (repeat' split) <;> (try simp [installation_each, apply_ite installation]) <;> (try rfl)

@[simp] theorem installation_assigned (c : CtxNo) (s : State) : installation (assigned c s) = installation s := by
  unfold assigned
  (repeat' split) <;> (try simp [installation_each, apply_ite installation]) <;> (try intros) <;> (repeat' split) <;> (try simp [installation_each, apply_ite installation]) <;> (try rfl)

@[simp] theorem installation_endStep (c : CtxNo) (s : State) : installation (endStep c s) = installation s := by
  unfold endStep
  (repeat' split) <;> (try simp [installation_each, apply_ite installation]) <;> (try intros) <;> (repeat' split) <;> (try simp [installation_each, apply_ite installation]) <;> (try rfl)

@[simp] theorem installation_nextStep (c : CtxNo) (s : State) : installation (nextStep c s) = installation s := by
  unfold nextStep
  (repeat' split) <;> (try simp [installation_each, apply_ite installation]) <;> (try intros) <;> (repeat' split) <;> (try simp [installation_each, apply_ite installation]) <;> (try rfl)

@[simp] theorem installation_readDone (c : CtxNo) (s : State) : installation (readDone c s) = installation s := by
  unfold readDone
  (repeat' split) <;> (try simp [installation_each, apply_ite installation]) <;> (try intros) <;> (repeat' split) <;> (try simp [installation_each, apply_ite installation]) <;> (try rfl)

@[simp] theorem installation_deliver (c : CtxNo) (s : State) : installation (deliver c s) = installation s := by
  unfold deliver
  (repeat' split) <;> (try simp [installation_each, apply_ite installation]) <;> (try intros) <;> (repeat' split) <;> (try simp [installation_each, apply_ite installation]) <;> (try rfl)

@[simp] theorem installation_flushWait (c : CtxNo) (s : State) : installation (flushWait c s) = installation s := by
  unfold flushWait
  (repeat' split) <;> (try simp [installation_each, apply_ite installation]) <;> (try intros) <;> (repeat' split) <;> (try simp [installation_each, apply_ite installation]) <;> (try rfl)

@[simp] theorem installation_modPass (f : Pass → Pass) (s : State) : installation (modPass f s) = installation s := by
  unfold modPass
  (repeat' split) <;> (try simp [installation_each, apply_ite installation]) <;> (try intros) <;> (repeat' split) <;> (try simp [installation_each, apply_ite installation]) <;> (try rfl)

@[simp] theorem installation_clearDropped (d : DriveNo) (p : Pass) (s : State) :
    installation (clearDropped d p s) = installation s := by
  unfold clearDropped
  (repeat' split) <;> (try simp [installation_each, apply_ite installation]) <;> (try intros) <;> (repeat' split) <;> (try simp [installation_each, apply_ite installation]) <;> (try rfl)

@[simp] theorem installation_endDropped (d : DriveNo) (p : Pass) (s : State) :
    installation (endDropped d p s) = installation s := by
  unfold endDropped
  (repeat' split) <;> (try simp [installation_each, apply_ite installation]) <;> (try intros) <;> (repeat' split) <;> (try simp [installation_each, apply_ite installation]) <;> (try rfl)

@[simp] theorem installation_stopStep (d : DriveNo) (c : CtxNo) (cond : Condition) (x : SectorNo) (before : List Task) (s : State) :
    installation (stopStep d c cond x before s) = installation s := by
  unfold stopStep
  (repeat' split) <;> (try simp [installation_each, apply_ite installation]) <;> (try intros) <;> (repeat' split) <;> (try simp [installation_each, apply_ite installation]) <;> (try rfl)

@[simp] theorem installation_stopFault (d : DriveNo) (p : Pass) (x : SectorNo) (s : State) :
    installation (stopFault d p x s) = installation s := by
  unfold stopFault
  (repeat' split) <;> (try simp [installation_each, apply_ite installation]) <;> (try intros) <;> (repeat' split) <;> (try simp [installation_each, apply_ite installation]) <;> (try rfl)

@[simp] theorem installation_withhold (d : DriveNo) (p : Pass) (x : SectorNo) (s : State) :
    installation (withhold d p x s) = installation s := by
  unfold withhold
  (repeat' split) <;> (try simp [installation_each, apply_ite installation]) <;> (try intros) <;> (repeat' split) <;> (try simp [installation_each, apply_ite installation]) <;> (try rfl)

@[simp] theorem installation_beginSector (d : DriveNo) (p : Pass) (s : State) :
    installation (beginSector d p s) = installation s := by
  unfold beginSector
  (repeat' split) <;> (try simp [installation_each, apply_ite installation]) <;> (try intros) <;> (repeat' split) <;> (try simp [installation_each, apply_ite installation]) <;> (try rfl)

@[simp] theorem installation_grantPass (d : DriveNo) (o : Orient) (s : State) :
    installation (grantPass d o s) = installation s := by
  unfold grantPass
  (repeat' split) <;> (try simp [installation_each, apply_ite installation]) <;> (try intros) <;> (repeat' split) <;> (try simp [installation_each, apply_ite installation]) <;> (try rfl)

@[simp] theorem installation_miss (d : DriveNo) (o : Orient) (s : State) :
    installation (miss d o s) = installation s := by
  unfold miss
  (repeat' split) <;> (try simp [installation_each, apply_ite installation]) <;> (try intros) <;> (repeat' split) <;> (try simp [installation_each, apply_ite installation]) <;> (try rfl)

@[simp] theorem installation_claim (d : DriveNo) (x : SectorNo) (s : State) :
    installation (claim d x s) = installation s := by
  unfold claim
  (repeat' split) <;> (try simp [installation_each, apply_ite installation]) <;> (try intros) <;> (repeat' split) <;> (try simp [installation_each, apply_ite installation]) <;> (try rfl)

@[simp] theorem installation_retryPass (d : DriveNo) (o : Orient) (left : List SectorNo) (s : State) :
    installation (retryPass d o left s) = installation s := by
  unfold retryPass
  (repeat' split) <;> (try simp [installation_each, apply_ite installation]) <;> (try intros) <;> (repeat' split) <;> (try simp [installation_each, apply_ite installation]) <;> (try rfl)

@[simp] theorem installation_finishPass (d : DriveNo) (p : Pass) (s : State) :
    installation (finishPass d p s) = installation s := by
  unfold finishPass
  (repeat' split) <;> (try simp [installation_each, apply_ite installation]) <;> (try intros) <;> (repeat' split) <;> (try simp [installation_each, apply_ite installation]) <;> (try rfl)

@[simp] theorem installation_satisfied (d : DriveNo) (x : SectorNo) (s : State) :
    installation (satisfied d x s) = installation s := by
  unfold satisfied
  (repeat' split) <;> (try simp [installation_each, apply_ite installation]) <;> (try intros) <;> (repeat' split) <;> (try simp [installation_each, apply_ite installation]) <;> (try rfl)

@[simp] theorem installation_takeRead (d : DriveNo) (p : Pass) (x : SectorNo) (data : Option (List Byte)) (s : State) :
    installation (takeRead d p x data s) = installation s := by
  unfold takeRead
  (repeat' split) <;> (try simp [installation_each, apply_ite installation]) <;> (try intros) <;> (repeat' split) <;> (try simp [installation_each, apply_ite installation]) <;> (try rfl)

@[simp] theorem installation_takeWritten (d : DriveNo) (p : Pass) (x : SectorNo) (s : State) :
    installation (takeWritten d p x s) = installation s := by
  unfold takeWritten
  (repeat' split) <;> (try simp [installation_each, apply_ite installation]) <;> (try intros) <;> (repeat' split) <;> (try simp [installation_each, apply_ite installation]) <;> (try rfl)

@[simp] theorem installation_afterResult (d : DriveNo) (s : State) :
    installation (afterResult d s) = installation s := by
  unfold afterResult
  (repeat' split) <;> (try simp [installation_each, apply_ite installation]) <;> (try intros) <;> (repeat' split) <;> (try simp [installation_each, apply_ite installation]) <;> (try rfl)

@[simp] theorem installation_takeNext (d : DriveNo) (r : PassResult) (s : State) :
    installation (takeNext d r s) = installation s := by
  unfold takeNext
  (repeat' split) <;> (try simp [installation_each, apply_ite installation]) <;> (try intros) <;> (repeat' split) <;> (try simp [installation_each, apply_ite installation]) <;> (try rfl)

@[simp] theorem installation_sectorResult (d : DriveNo) (sec : SectorNo) (r : PassResult) (s : State) :
    installation (sectorResult d sec r s) = installation s := by
  unfold sectorResult
  (repeat' split) <;> (try simp [installation_each, apply_ite installation]) <;> (try intros) <;> (repeat' split) <;> (try simp [installation_each, apply_ite installation]) <;> (try rfl)

@[simp] theorem installation_closeSector (d : DriveNo) (s : State) :
    installation (closeSector d s) = installation s := by
  unfold closeSector
  (repeat' split) <;> (try simp [installation_each, apply_ite installation]) <;> (try intros) <;> (repeat' split) <;> (try simp [installation_each, apply_ite installation]) <;> (try rfl)

@[simp] theorem installation_sendSafeState (d : DriveNo) (s : State) :
    installation (sendSafeState d s) = installation s := by
  unfold sendSafeState
  (repeat' split) <;> (try simp [installation_each, apply_ite installation]) <;> (try intros) <;> (repeat' split) <;> (try simp [installation_each, apply_ite installation]) <;> (try rfl)

@[simp] theorem installation_cutPass (d : DriveNo) (s : State) : installation (cutPass d s) = installation s := by
  unfold cutPass
  (repeat' split) <;> (try simp [installation_each, apply_ite installation]) <;> (try intros) <;> (repeat' split) <;> (try simp [installation_each, apply_ite installation]) <;> (try rfl)

@[simp] theorem installation_enterFenced (d : DriveNo) (s : State) :
    installation (enterFenced d s) = installation s := by
  unfold enterFenced
  (repeat' split) <;> (try simp [installation_each, apply_ite installation]) <;> (try intros) <;> (repeat' split) <;> (try simp [installation_each, apply_ite installation]) <;> (try rfl)

@[simp] theorem installation_fenceArm (d : DriveNo) (s : State) : installation (fenceArm d s) = installation s := by
  unfold fenceArm
  (repeat' split) <;> (try simp [installation_each, apply_ite installation]) <;> (try intros) <;> (repeat' split) <;> (try simp [installation_each, apply_ite installation]) <;> (try rfl)

@[simp] theorem installation_fenceWork (d : DriveNo) (k : Option Selection) (s : State) :
    installation (fenceWork d k s) = installation s := by
  unfold fenceWork
  (repeat' split) <;> (try simp [installation_each, apply_ite installation]) <;> (try intros) <;> (repeat' split) <;> (try simp [installation_each, apply_ite installation]) <;> (try rfl)

@[simp] theorem installation_actOfFencing (d : DriveNo) (s : State) :
    installation (actOfFencing d s) = installation s := by
  unfold actOfFencing
  (repeat' split) <;> (try simp [installation_each, apply_ite installation]) <;> (try intros) <;> (repeat' split) <;> (try simp [installation_each, apply_ite installation]) <;> (try rfl)

@[simp] theorem installation_fenceTest (d : DriveNo) (s : State) : installation (fenceTest d s) = installation s := by
  unfold fenceTest
  (repeat' split) <;> (try simp [installation_each, apply_ite installation]) <;> (try intros) <;> (repeat' split) <;> (try simp [installation_each, apply_ite installation]) <;> (try rfl)

@[simp] theorem installation_clearFlag (d : DriveNo) (s : State) : installation (clearFlag d s) = installation s := by
  unfold clearFlag
  (repeat' split) <;> (try simp [installation_each, apply_ite installation]) <;> (try intros) <;> (repeat' split) <;> (try simp [installation_each, apply_ite installation]) <;> (try rfl)

@[simp] theorem installation_autoReleaseTest (d : DriveNo) (s : State) :
    installation (autoReleaseTest d s) = installation s := by
  unfold autoReleaseTest
  (repeat' split) <;> (try simp [installation_each, apply_ite installation]) <;> (try intros) <;> (repeat' split) <;> (try simp [installation_each, apply_ite installation]) <;> (try rfl)

@[simp] theorem installation_releaseRecord (d : DriveNo) (s : State) :
    installation (releaseRecord d s) = installation s := by
  unfold releaseRecord
  (repeat' split) <;> (try simp [installation_each, apply_ite installation]) <;> (try intros) <;> (repeat' split) <;> (try simp [installation_each, apply_ite installation]) <;> (try rfl)

@[simp] theorem installation_releaseItems (d : DriveNo) (s : State) :
    installation (releaseItems d s) = installation s := by
  unfold releaseItems
  (repeat' split) <;> (try simp [installation_each, apply_ite installation]) <;> (try intros) <;> (repeat' split) <;> (try simp [installation_each, apply_ite installation]) <;> (try rfl)

@[simp] theorem installation_releaseFence (d : DriveNo) (s : State) :
    installation (releaseFence d s) = installation s := by
  unfold releaseFence
  (repeat' split) <;> (try simp [installation_each, apply_ite installation]) <;> (try intros) <;> (repeat' split) <;> (try simp [installation_each, apply_ite installation]) <;> (try rfl)

@[simp] theorem installation_raiseReady (d : DriveNo) (why : Option RecalReason) (s : State) :
    installation (raiseReady d why s) = installation s := by
  unfold raiseReady
  (repeat' split) <;> (try simp [installation_each, apply_ite installation]) <;> (try intros) <;> (repeat' split) <;> (try simp [installation_each, apply_ite installation]) <;> (try rfl)

@[simp] theorem installation_idleReady (d : DriveNo) (why : Option RecalReason) (s : State) :
    installation (idleReady d why s) = installation s := by
  simp [idleReady]

@[simp] theorem installation_recalibrated (d : DriveNo) (s : State) :
    installation (recalibrated d s) = installation s := by
  unfold recalibrated
  (repeat' split) <;> (try simp [installation_each, apply_ite installation]) <;> (try intros) <;> (repeat' split) <;> (try simp [installation_each, apply_ite installation]) <;> (try rfl)

@[simp] theorem installation_purge (d : DriveNo) (s : State) : installation (purge d s) = installation s := by
  unfold purge
  (repeat' split) <;> (try simp [installation_each, apply_ite installation]) <;> (try intros) <;> (repeat' split) <;> (try simp [installation_each, apply_ite installation]) <;> (try rfl)

@[simp] theorem installation_dropDrive (d : DriveNo) (ready late : Bool) (s : State) :
    installation (dropDrive d ready late s) = installation s := by
  unfold dropDrive
  (repeat' split) <;> (try simp [installation_each, apply_ite installation]) <;> (try intros) <;> (repeat' split) <;> (try simp [installation_each, apply_ite installation]) <;> (try rfl)

@[simp] theorem installation_loseBuffer (b : BufNo) (s : State) : installation (loseBuffer b s) = installation s := by
  unfold loseBuffer
  (repeat' split) <;> (try simp [installation_each, apply_ite installation]) <;> (try intros) <;> (repeat' split) <;> (try simp [installation_each, apply_ite installation]) <;> (try rfl)

@[simp] theorem installation_losePack (d : DriveNo) (wasFenced : Bool) (s : State) :
    installation (losePack d wasFenced s) = installation s := by
  unfold losePack
  (repeat' split) <;> (try simp [installation_each, apply_ite installation]) <;> (try intros) <;> (repeat' split) <;> (try simp [installation_each, apply_ite installation]) <;> (try rfl)

@[simp] theorem installation_runTask (t : Task) (s : State) : installation (runTask t s) = installation s := by
  unfold runTask
  (repeat' split) <;> (try simp [installation_each, apply_ite installation]) <;> (try intros) <;> (repeat' split) <;> (try simp [installation_each, apply_ite installation]) <;> (try rfl)

/-- Internal work leaves the installation alone. -/
@[simp] theorem installation_settle (s : State) : installation (settle s) = installation s :=
  settle_keeps (P := fun t => installation t = installation s) (fun t w h => (installation_set_work t w).trans h)
    (fun t u h => (installation_runTask t u).trans h) s rfl

/-- Internal work leaves authority, Attach Memory, the Path Table, the pins and the queue alone. -/
@[simp] theorem settle_installation (s : State) :
    (settle s).auth = s.auth ∧ (settle s).attachMemory = s.attachMemory ∧ (settle s).paths = s.paths ∧
    (settle s).lineUp = s.lineUp ∧ (settle s).switches = s.switches ∧ (settle s).clearLine = s.clearLine ∧
    (settle s).pending = s.pending := by
  have h := installation_settle s
  simp only [installation, Prod.mk.injEq] at h
  exact h

end Sys2Proof.Machine.Laws
end

