-- ==== Sys2Proof/Laws/Presentation.lean ====
section
/-! SUPPORT. What raising, withdrawing, offering and returning items can touch: the ports, the item sets and what has
been sent, and nothing else. -/

set_option linter.all false

namespace Sys2Proof.Machine.Laws

/-- Everything but the ports, the item sets and what has been sent. -/
def behind (s : State) :=
  (s.auth, s.lineUp, s.contexts, s.acceptCount, s.ctxWait, s.paths, s.resv, s.drives, s.scheds, s.path, s.orients,
    s.buffers, s.lru, s.bufWait, s.capture, s.further, s.tracks, s.suspects, s.fences, s.attachMemory, s.switches,
    s.clearLine, s.work, s.pending)

theorem behind_each {α : Type} {f : α → State → State} (xs : List α) (h : ∀ x t, behind (f x t) = behind t)
    (s : State) : behind (each xs f s) = behind s := by
  induction xs generalizing s with
  | nil => rfl
  | cons x r ih => rw [each_cons, ih, h]

@[simp] theorem behind_modPort (l : LinkNo) (f : Port → Port) (s : State) : behind (s.modPort l f) = behind s := rfl

@[simp] theorem behind_modPresent (l : LinkNo) (f : Present → Present) (s : State) :
    behind (s.modPresent l f) = behind s := rfl

@[simp] theorem behind_frame (l : LinkNo) (f : HostFrame) (s : State) : behind (s.frame l f) = behind s := rfl

@[simp] theorem behind_choose (l : LinkNo) (s : State) : behind (choose l s) = behind s := by
  unfold choose
  (repeat' split) <;> (try simp [behind_each, apply_ite behind]) <;> (try intros) <;> (repeat' split) <;> (try simp [behind_each, apply_ite behind]) <;> (try rfl)

@[simp] theorem behind_goIdle (l : LinkNo) (s : State) : behind (goIdle l s) = behind s := by
  unfold goIdle
  (repeat' split) <;> (try simp [behind_each, apply_ite behind]) <;> (try intros) <;> (repeat' split) <;> (try simp [behind_each, apply_ite behind]) <;> (try rfl)

@[simp] theorem behind_setFloor (l : LinkNo) (f : Fin 16) (s : State) : behind (setFloor l f s) = behind s := by
  unfold setFloor
  (repeat' split) <;> (try simp [behind_each, apply_ite behind]) <;> (try intros) <;> (repeat' split) <;> (try simp [behind_each, apply_ite behind]) <;> (try rfl)

@[simp] theorem behind_setItems (l : LinkNo) (xs : List Item) (s : State) : behind (setItems l xs s) = behind s := by
  unfold setItems
  (repeat' split) <;> (try simp [behind_each, apply_ite behind]) <;> (try intros) <;> (repeat' split) <;> (try simp [behind_each, apply_ite behind]) <;> (try rfl)

@[simp] theorem behind_joinSet (l : LinkNo) (b : ItemBody) (s : State) : behind (joinSet l b s) = behind s := by
  unfold joinSet
  (repeat' split) <;> (try simp [behind_each, apply_ite behind]) <;> (try intros) <;> (repeat' split) <;> (try simp [behind_each, apply_ite behind]) <;> (try rfl)

@[simp] theorem behind_raise (l : LinkNo) (b : ItemBody) (s : State) : behind (raise l b s) = behind s := by
  unfold raise
  (repeat' split) <;> (try simp [behind_each, apply_ite behind]) <;> (try intros) <;> (repeat' split) <;> (try simp [behind_each, apply_ite behind]) <;> (try rfl)

@[simp] theorem behind_raiseOn (ls : List LinkNo) (b : ItemBody) (s : State) :
    behind (raiseOn ls b s) = behind s := by
  unfold raiseOn
  (repeat' split) <;> (try simp [behind_each, apply_ite behind]) <;> (try intros) <;> (repeat' split) <;> (try simp [behind_each, apply_ite behind]) <;> (try rfl)

@[simp] theorem behind_raiseDrive (d : DriveNo) (b : ItemBody) (s : State) :
    behind (raiseDrive d b s) = behind s := by
  unfold raiseDrive
  (repeat' split) <;> (try simp [behind_each, apply_ite behind]) <;> (try intros) <;> (repeat' split) <;> (try simp [behind_each, apply_ite behind]) <;> (try rfl)

@[simp] theorem behind_withdraw (l : LinkNo) (b : ItemBody) (s : State) : behind (withdraw l b s) = behind s := by
  unfold withdraw
  (repeat' split) <;> (try simp [behind_each, apply_ite behind]) <;> (try intros) <;> (repeat' split) <;> (try simp [behind_each, apply_ite behind]) <;> (try rfl)

@[simp] theorem behind_endLevelOn (b : ItemBody) (l : LinkNo) (s : State) : behind (endLevelOn b l s) = behind s := by
  unfold endLevelOn
  (repeat' split) <;> (try simp [behind_each, apply_ite behind]) <;> (try intros) <;> (repeat' split) <;> (try simp [behind_each, apply_ite behind]) <;> (try rfl)

@[simp] theorem behind_endLevel (b : ItemBody) (s : State) : behind (endLevel b s) = behind s := by
  unfold endLevel
  (repeat' split) <;> (try simp [behind_each, apply_ite behind]) <;> (try intros) <;> (repeat' split) <;> (try simp [behind_each, apply_ite behind]) <;> (try rfl)

@[simp] theorem behind_returnItem (l : LinkNo) (i : Item) (s : State) : behind (returnItem l i s) = behind s := by
  unfold returnItem
  (repeat' split) <;> (try simp [behind_each, apply_ite behind]) <;> (try intros) <;> (repeat' split) <;> (try simp [behind_each, apply_ite behind]) <;> (try rfl)

@[simp] theorem behind_putOff (l : LinkNo) (s : State) : behind (putOff l s) = behind s := by
  unfold putOff
  (repeat' split) <;> (try simp [behind_each, apply_ite behind]) <;> (try intros) <;> (repeat' split) <;> (try simp [behind_each, apply_ite behind]) <;> (try rfl)

@[simp] theorem behind_clearSet (l : LinkNo) (s : State) : behind (clearSet l s) = behind s := by
  unfold clearSet
  (repeat' split) <;> (try simp [behind_each, apply_ite behind]) <;> (try intros) <;> (repeat' split) <;> (try simp [behind_each, apply_ite behind]) <;> (try rfl)

@[simp] theorem behind_dataLost (b : BufNo) (xs : List SectorNo) (s : State) :
    behind (dataLost b xs s) = behind s := by
  unfold dataLost
  (repeat' split) <;> (try simp [behind_each, apply_ite behind]) <;> (try intros) <;> (repeat' split) <;> (try simp [behind_each, apply_ite behind]) <;> (try rfl)

/-- The choice of R54 touches the ports, the item sets and what is sent. -/
@[simp] theorem choose_keeps (l : LinkNo) (s : State) :
    (choose l s).auth = s.auth ∧ (choose l s).lineUp = s.lineUp ∧ (choose l s).contexts = s.contexts ∧
    (choose l s).acceptCount = s.acceptCount ∧ (choose l s).ctxWait = s.ctxWait ∧ (choose l s).paths = s.paths ∧
    (choose l s).resv = s.resv ∧ (choose l s).drives = s.drives ∧ (choose l s).scheds = s.scheds ∧
    (choose l s).path = s.path ∧ (choose l s).orients = s.orients ∧ (choose l s).buffers = s.buffers ∧
    (choose l s).lru = s.lru ∧ (choose l s).bufWait = s.bufWait ∧ (choose l s).capture = s.capture ∧
    (choose l s).further = s.further ∧ (choose l s).tracks = s.tracks ∧ (choose l s).suspects = s.suspects ∧
    (choose l s).fences = s.fences ∧ (choose l s).attachMemory = s.attachMemory ∧
    (choose l s).switches = s.switches ∧ (choose l s).clearLine = s.clearLine ∧ (choose l s).work = s.work ∧
    (choose l s).pending = s.pending := by
  have h := behind_choose l s
  simp only [behind, Prod.mk.injEq] at h
  exact h

/-- Raising an item touches the ports, the item sets and what is sent (R48, R54). -/
@[simp] theorem raise_keeps (l : LinkNo) (b : ItemBody) (s : State) :
    (raise l b s).auth = s.auth ∧ (raise l b s).lineUp = s.lineUp ∧ (raise l b s).contexts = s.contexts ∧
    (raise l b s).acceptCount = s.acceptCount ∧ (raise l b s).ctxWait = s.ctxWait ∧ (raise l b s).paths = s.paths ∧
    (raise l b s).resv = s.resv ∧ (raise l b s).drives = s.drives ∧ (raise l b s).scheds = s.scheds ∧
    (raise l b s).path = s.path ∧ (raise l b s).orients = s.orients ∧ (raise l b s).buffers = s.buffers ∧
    (raise l b s).lru = s.lru ∧ (raise l b s).bufWait = s.bufWait ∧ (raise l b s).capture = s.capture ∧
    (raise l b s).further = s.further ∧ (raise l b s).tracks = s.tracks ∧ (raise l b s).suspects = s.suspects ∧
    (raise l b s).fences = s.fences ∧ (raise l b s).attachMemory = s.attachMemory ∧
    (raise l b s).switches = s.switches ∧ (raise l b s).clearLine = s.clearLine ∧ (raise l b s).work = s.work ∧
    (raise l b s).pending = s.pending := by
  have h := behind_raise l b s
  simp only [behind, Prod.mk.injEq] at h
  exact h

/-- Raising a notice of a drive touches the ports, the item sets and what is sent (R49). -/
@[simp] theorem raiseDrive_keeps (d : DriveNo) (b : ItemBody) (s : State) :
    (raiseDrive d b s).auth = s.auth ∧ (raiseDrive d b s).lineUp = s.lineUp ∧
    (raiseDrive d b s).contexts = s.contexts ∧ (raiseDrive d b s).acceptCount = s.acceptCount ∧
    (raiseDrive d b s).ctxWait = s.ctxWait ∧ (raiseDrive d b s).paths = s.paths ∧
    (raiseDrive d b s).resv = s.resv ∧ (raiseDrive d b s).drives = s.drives ∧
    (raiseDrive d b s).scheds = s.scheds ∧ (raiseDrive d b s).path = s.path ∧
    (raiseDrive d b s).orients = s.orients ∧ (raiseDrive d b s).buffers = s.buffers ∧
    (raiseDrive d b s).lru = s.lru ∧ (raiseDrive d b s).bufWait = s.bufWait ∧
    (raiseDrive d b s).capture = s.capture ∧ (raiseDrive d b s).further = s.further ∧
    (raiseDrive d b s).tracks = s.tracks ∧ (raiseDrive d b s).suspects = s.suspects ∧
    (raiseDrive d b s).fences = s.fences ∧ (raiseDrive d b s).attachMemory = s.attachMemory ∧
    (raiseDrive d b s).switches = s.switches ∧ (raiseDrive d b s).clearLine = s.clearLine ∧
    (raiseDrive d b s).work = s.work ∧ (raiseDrive d b s).pending = s.pending := by
  have h := behind_raiseDrive d b s
  simp only [behind, Prod.mk.injEq] at h
  exact h

/-- Putting an offer off touches the ports, the item sets and what is sent (R57). -/
@[simp] theorem putOff_keeps (l : LinkNo) (s : State) :
    (putOff l s).auth = s.auth ∧ (putOff l s).lineUp = s.lineUp ∧ (putOff l s).contexts = s.contexts ∧
    (putOff l s).acceptCount = s.acceptCount ∧ (putOff l s).ctxWait = s.ctxWait ∧ (putOff l s).paths = s.paths ∧
    (putOff l s).resv = s.resv ∧ (putOff l s).drives = s.drives ∧ (putOff l s).scheds = s.scheds ∧
    (putOff l s).path = s.path ∧ (putOff l s).orients = s.orients ∧ (putOff l s).buffers = s.buffers ∧
    (putOff l s).lru = s.lru ∧ (putOff l s).bufWait = s.bufWait ∧ (putOff l s).capture = s.capture ∧
    (putOff l s).further = s.further ∧ (putOff l s).tracks = s.tracks ∧ (putOff l s).suspects = s.suspects ∧
    (putOff l s).fences = s.fences ∧ (putOff l s).attachMemory = s.attachMemory ∧
    (putOff l s).switches = s.switches ∧ (putOff l s).clearLine = s.clearLine ∧ (putOff l s).work = s.work ∧
    (putOff l s).pending = s.pending := by
  have h := behind_putOff l s
  simp only [behind, Prod.mk.injEq] at h
  exact h

/-- A link that enters IDLE touches the ports, the item sets and what is sent (R54). -/
@[simp] theorem goIdle_keeps (l : LinkNo) (s : State) :
    (goIdle l s).auth = s.auth ∧ (goIdle l s).lineUp = s.lineUp ∧ (goIdle l s).contexts = s.contexts ∧
    (goIdle l s).acceptCount = s.acceptCount ∧ (goIdle l s).ctxWait = s.ctxWait ∧ (goIdle l s).paths = s.paths ∧
    (goIdle l s).resv = s.resv ∧ (goIdle l s).drives = s.drives ∧ (goIdle l s).scheds = s.scheds ∧
    (goIdle l s).path = s.path ∧ (goIdle l s).orients = s.orients ∧ (goIdle l s).buffers = s.buffers ∧
    (goIdle l s).lru = s.lru ∧ (goIdle l s).bufWait = s.bufWait ∧ (goIdle l s).capture = s.capture ∧
    (goIdle l s).further = s.further ∧ (goIdle l s).tracks = s.tracks ∧ (goIdle l s).suspects = s.suspects ∧
    (goIdle l s).fences = s.fences ∧ (goIdle l s).attachMemory = s.attachMemory ∧
    (goIdle l s).switches = s.switches ∧ (goIdle l s).clearLine = s.clearLine ∧ (goIdle l s).work = s.work ∧
    (goIdle l s).pending = s.pending := by
  have h := behind_goIdle l s
  simp only [behind, Prod.mk.injEq] at h
  exact h

end Sys2Proof.Machine.Laws
end

