-- ==== Sys2Proof/Laws/Reservation.lean ====
section
/-! SUPPORT. What each operation of Reservation Control does to the Reservation Records; all of them leave the Path
Table and the other drives' records alone. -/

namespace Sys2Proof.Machine.Laws

/-- A record after the hand-off (R75). -/
def handed (r : Reservation) : Reservation :=
  match r.waitList with
  | [] => r
  | l :: rest => ⟨some l, rest⟩

/-- A record whose holder has been cleared and handed on (R74 to R77). -/
def cleared (r : Reservation) : Reservation := handed { r with holder := none }

/-- A record that a link has left as a waiter (R67, R74, R77). -/
def without (l : LinkNo) (r : Reservation) : Reservation := { r with waitList := r.waitList.filter fun k => k != l }

theorem handOff_resv (d : DriveNo) (s : State) : (handOff d s).resv = change s.resv d handed := by
  unfold handOff
  split
  · next h => exact (change_id _ _ _ (by simp [handed, h])).symm
  · next l rest h =>
    simp only [raise_keeps, modResv_resv]
    apply Vector.ext
    intro j hj
    simp [change, put, Vector.getElem_set]
    simp [handed, h]

theorem clearHolder_resv (d : DriveNo) (s : State) : (clearHolder d s).resv = change s.resv d cleared := by
  simp only [clearHolder, handOff_resv, modResv_resv, change_change]
  rfl

theorem leaveWait_resv (l : LinkNo) (d : DriveNo) (s : State) : (leaveWait l d s).resv = change s.resv d (without l) :=
  rfl

theorem takeAway_resv (l : LinkNo) (d : DriveNo) (s : State) : (takeAway l d s).resv = change s.resv d cleared := by
  simp only [takeAway, handOff_resv, raise_keeps, modResv_resv, change_change]
  rfl

/-- A link gives up its reservation or its place (R77). -/
theorem loseReservation_resv (l : LinkNo) (d : DriveNo) (s : State) :
    (loseReservation l d s).resv =
      change s.resv d (if (s.resv.get d).holder = some l then cleared else without l) := by
  unfold loseReservation
  split <;> simp [clearHolder_resv, leaveWait_resv]

/-- A link loses its path (R67). -/
theorem losePath_resv (l : LinkNo) (d : DriveNo) (s : State) :
    (losePath l d s).resv = change s.resv d (if (s.resv.get d).holder = some l then cleared else without l) := by
  unfold losePath
  split <;> simp [takeAway_resv, leaveWait_resv]

/-- RESERVE leaves everything but the drive's record alone (R71, R72). -/
theorem reserve_rest (l : LinkNo) (d : DriveNo) (wait : Bool) (s : State) :
    (reserve l d wait s).paths = s.paths ∧ (reserve l d wait s).sent = s.sent ∧
    (reserve l d wait s).present = s.present ∧ (reserve l d wait s).ports = s.ports ∧
    (reserve l d wait s).work = s.work := by
  unfold reserve
  (repeat' split) <;> simp

/-- RESERVE on a free drive for an ALLOWED link (R71). -/
theorem reserve_free (l : LinkNo) (d : DriveNo) (wait : Bool) (s : State) (ha : s.allowed l d = true)
    (hf : (s.resv.get d).holder = none) :
    reserve l d wait s = s.modResv d fun r => { r with holder := some l } := by
  simp [reserve, ha, hf]

end Sys2Proof.Machine.Laws
end

