-- ==== Sys2Proof/WellFormed.lean ====
section
/-! DEFINITION. Which commands the outside world can give: a frame that a port receives has the layout its type gives
(R201 to R203), and a drive's result carries one sector. -/

namespace Sys2Proof

/-- A sector-result's data is one sector (R4). -/
def PassResult.wf : PassResult → Bool
  | .good data | .corrected data => data.length == Config.sectorBytes
  | .uncorrectable | .written => true

/-- The event that ends a pass is well formed. -/
def PassCloser.wf : PassCloser → Bool
  | .result _ r => r.wf
  | .sectorEvent | .indexEvent => true

/-- An operand block's length is a two-byte number (R203). -/
def operandWf (operand : List Byte) : Bool := decide (operand.length < 65536)

/-- A command that can be given. -/
def Instr.wf : Instr → Bool
  | .commandFrame _ unit _ _ _ _ => unit != BitVec.ofNat 4 Config.controllerUnit
  | .dataFrame _ _ _ data => data.length == Config.sectorBytes
  | .frameCheckFailure cl frame => decide (((checked frame).bind (frameCommand cl)) = none)
  | .manageInvalid _ _ (.unknownCode code) => decide (code.toNat < 1) || decide (22 < code.toNat)
  | .attach _ _ o _ | .statusRead _ _ o | .mapRead _ _ o | .suspectRead _ _ o | .bufferRead _ _ o
  | .captureRead _ _ o | .priorityWrite _ _ o | .pathWrite _ _ o | .policyWrite _ _ o | .mapBegin _ _ o
  | .mapLoad _ _ o | .mapCommit _ _ o | .relocate _ _ o | .suspectPlace _ _ o | .suspectRemove _ _ o
  | .fenceForce _ _ o | .fenceClear _ _ o | .fencePurge _ _ o | .forceRelease _ _ o | .bufferDiscard _ _ o
  | .parityForce _ _ o | .controllerReset _ _ o => operandWf o
  | .sectorResult _ _ r => r.wf
  | .passEnd _ e => e.wf
  | _ => true

end Sys2Proof
end

