-- ==== Sys2Proof/Tests/Slice0.lean ====
section
/-! SUPPORT. Tests: what WellFormed refuses, the frame check and the frames, a few commands on small states, and for
every statement with hypotheses a state and operands that meet them. -/

set_option Elab.async false

namespace Sys2Proof.Tests
open Sys2Proof Sys2Proof.Machine

/-! WellFormed refuses an ill-formed command for each of its checks. -/

theorem test_wf_unit : (Instr.commandFrame 0 15#4 0#8 false 1#8 []).wf = false ∧
    (Instr.commandFrame 0 14#4 0#8 false 1#8 []).wf = true := by decide

theorem test_wf_data : (Instr.dataFrame 0 0#8 0#8 [1#8]).wf = false := by decide

theorem test_wf_discarded : (Instr.frameCheckFailure 0 (withCheck [3#8])).wf = false ∧
    (Instr.frameCheckFailure 0 [3#8, 0#8, 0#8]).wf = true := by decide +kernel

theorem test_wf_code : (Instr.manageInvalid 0 0#8 (.unknownCode 22#8)).wf = false ∧
    (Instr.manageInvalid 0 0#8 (.unknownCode 1#8)).wf = false ∧
    (Instr.manageInvalid 0 0#8 (.unknownCode 23#8)).wf = true ∧
    (Instr.manageInvalid 0 0#8 (.unknownCode 0#8)).wf = true := by decide

theorem test_wf_operand (bs : List Byte) (h : bs.length = 65536) : (Instr.bufferRead 0 0#8 bs).wf = false := by
  simp [Instr.wf, operandWf, h]

theorem test_wf_result : (Instr.sectorResult 0 0 (.good [])).wf = false ∧
    (Instr.passEnd 0 (.result 0 (.corrected []))).wf = false ∧ (Instr.sectorResult 0 0 .written).wf = true := by decide

/-! Frames as bytes (R201 to R204). -/

theorem test_receive_accept : receiveFrame 2 (withCheck [3#8]) = .accept 2 := by decide +kernel

theorem test_receive_halt : receiveFrame 2 (withCheck [6#8, 9#8]) = .halt 2 9#8 := by decide +kernel

theorem test_receive_chain : receiveFrame 1 (withCheck [1#8, 0x71#8, 5#8, 1#8, 6#8, 0#8, 0#8, 0#8]) =
    .commandFrame 1 7#4 5#8 true 1#8 [6#8, 0#8, 0#8, 0#8] := by decide +kernel

theorem test_receive_management : receiveFrame 1 (withCheck [1#8, 0xF0#8, 5#8, 1#8, 8#8, 2#8, 0#8, 1#8, 7#8]) =
    .statusRead 1 5#8 [7#8] := by decide +kernel

theorem test_receive_bad_check : receiveFrame 1 [3#8, 0#8, 0#8] = .frameCheckFailure 1 [3#8, 0#8, 0#8] := by
  decide +kernel

theorem test_receive_bad_length : receiveFrame 1 (withCheck [3#8, 0#8]) =
    .frameCheckFailure 1 (withCheck [3#8, 0#8]) := by decide +kernel

theorem test_sent_taken : (HostFrame.taken 5#8).body = [9#8, 5#8] := by decide

theorem test_chain_format :
    readChain 2#8 [1#8, 2#8, 87#8, 9#8, 2#8, 15#8, 1#8, 0#8] = .good [.seek ⟨599, 9⟩, .read 15 1] ∧
    readChain 1#8 [2#8, 0#8, 1#8, 0#8] = .bad (some 0) ∧ readChain 0#8 [] = .bad none := by decide +kernel

/-! Small states. -/

/-- The state that a command leads to. -/
def after (c : Instr) (s : State) : State := match exec c s with | .next t => t | _ => s

/-- Drive 7 in service: IDLE at cylinder 100 with its map LOADED. -/
def served : State :=
  (State.reset.modDrive 7 fun r => { r with ready := true, arm := .idle, cyl := some 100 }).modTracks 7 fun t =>
    { t with map := .loaded }

/-- The same with CL3 at FULL authority. -/
def attached : State := { served.modAuth 3 fun a => { a with full := true } with attachMemory := true }

/-- Drive 7's arm in a state. -/
def armIn (a : ArmState) (s : State) : State := s.setArm 7 a

/-- A chain of CL3 on drive 7 with tag 255: a SEEK and a READ of one sector. -/
def chain (st : CtxState) : Context := { chainOf 3 7 255#8 0 [.seek ⟨599, 9⟩, .read 15 1] with state := st, cur := 1 }

/-- Context 15 taken by a chain. -/
def running (x : Context) (s : State) : State := s.setCtx 15 (some x)

/-- CL3 in a link state. -/
def linkIn (k : LinkState) (s : State) : State := s.modPort 3 fun p => { p with state := k }

/-- Items in CL3's set. -/
def holding (xs : List Item) (s : State) : State := s.modPresent 3 fun p => { p with items := xs, nextAge := 9 }

/-- Drive 7 reserved, with waiters. -/
def reserved (h : Option LinkNo) (ws : List LinkNo) (s : State) : State := s.modResv 7 fun _ => ⟨h, ws⟩

/-- Buffer 5 assigned to track 599/9 of drive 7. -/
def filled (cells : List (SectorNo × Cell)) (g : Destage) (s : State) : State :=
  s.modBuffer 5 fun r => { r with assigned := some (7, ⟨599, 9⟩), cells := cells, destage := g }

/-- Fence Record of drive 7. -/
def fenced (f : Fence) (s : State) : State := s.modFence 7 fun _ => f

/-! A few commands, each on a small state. -/

theorem test_ready : (after (.ready 7) State.reset).sent = [.order 7 .recalibrate] ∧
    ((after (.ready 7) State.reset).drive 7).arm = .recalibrating := by decide +kernel

theorem test_ready_twice : (after (.ready 7) (after (.ready 7) State.reset)).sent = [.order 7 .recalibrate] := by
  decide +kernel

theorem test_sense_chain : (after (.commandFrame 3 7#4 5#8 false 1#8 [6#8, 0#8, 0#8, 0#8]) served).sent.length = 1 := by
  decide +kernel

theorem test_seek_chain : (after (.commandFrame 3 7#4 5#8 false 2#8 [1#8, 0#8, 200#8, 3#8, 2#8, 0#8, 1#8, 0#8]) served).sent =
    [.frame 3 (.taken 5#8), .order 7 (.seek 200)] := by decide +kernel

theorem test_same_cylinder : ((after (.commandFrame 3 7#4 5#8 false 2#8 [1#8, 0#8, 100#8, 3#8, 2#8, 0#8, 1#8, 0#8])
    served).drive 7).arm = .orienting := by decide +kernel

theorem test_link_busy : (after (.commandFrame 3 7#4 5#8 false 1#8 [6#8, 0#8, 0#8, 0#8])
    (linkIn (.offering 0) served)).sent = [.frame 3 (.linkBusy 7#4 5#8)] := by decide +kernel

theorem test_fence_force_idle : ((after (.fenceForce 3 0#8 [7#8]) attached).drive 7).arm = .fenced := by decide +kernel

theorem test_not_ready : (after (.notReady 7) (running (chain .queued) served)).ctx 15 =
    some { chain .ending with ending := some ⟨.driveDropped, some 1, []⟩ } := by decide +kernel

theorem test_capture : captureBytes { State.reset with
    capture := some ⟨5, 7, ⟨599, 9⟩, 15, true, .destage, true⟩, further := 255 } =
    [1#8, 5#8, 7#8, 2#8, 87#8, 9#8, 15#8, 1#8, 2#8, 0#8, 0#8, 1#8, 255#8] := by decide +kernel

/-- Two DIRTY buffers of drive 7, buffer 4 behind the arm and buffer 5 ahead, under DEFERRED. -/
def dirty45 : State :=
  ((filled [(15, ⟨[2#8], true, false⟩)] .none attached).modBuffer 4 fun r =>
    { r with assigned := some (7, ⟨99, 0⟩), cells := [(0, ⟨[1#8], true, false⟩)] }).modDrive 7 fun r =>
    { r with policy := { r.policy with writeMode := .deferred } }

/-- An IDLE arm selects the first item before the second joins, though the second lies ahead (R87). -/
theorem test_items_in_turn :
    (let t := after (.policyWrite 3 0#8 [7#8, 2#8, 8#8, 3#8, 3#8, 0#8, 0#8, 0#8, 3#8, 4#8, 9#8, 0#8, 0#8]) dirty45
     ((t.sched 7).selection.map (·.work), (t.sched 7).queue.map fun i => (i.work, i.passes))) =
    (some (.destage 4), [(.destage 5, 0)]) := by decide +kernel

/-- A relocation whose READ_OLD is seeking, buffer 5 without the sector that it held dirty. -/
def seekingOld : State :=
  ((filled [] .none attached).modTracks 7 fun t =>
    { t with entries := [⟨⟨599, 9⟩, 39, [0, 14]⟩]
             reloc := some ⟨⟨599, 9⟩, ⟨603, 9⟩, none, .readOld, some 5, [0], false⟩ }).modDrive 7 (fun r =>
    { r with arm := .seeking, seekTarget := some 603 }) |>.modSched 7 fun q =>
    { q with selection := some ⟨.relocation .readOld, ⟨603, 9⟩, false, 0, false, ⟨599, 9⟩, 0, 0⟩ }

/-- READ_OLD after a seek check fills the pending lost set again (R157, R164). -/
theorem test_read_old_again :
    ((after (.index 7) (after (.recalDone 7 true) (after (.seekDone 7 false) seekingOld))).track 7).reloc =
      some ⟨⟨599, 9⟩, ⟨603, 9⟩, none, .readOld, some 5, [0, 14], false⟩ := by decide +kernel

/-- Context 15 the last to pin the CLEAN buffer 5, two requesters that wait, and buffer 4 DIRTY under DEFERRED. -/
def lastPin : State :=
  let s := dirty45.modBuffer 5 fun r => { r with cells := [] }
  { (((running { chain .waitLink with buffer := some 5 } s).setCtx 0 (some { chain (.waitStore .bufferList) with
        tag := 1#8, cur := 0, entries := [.seek ⟨1, 0⟩, .read 0 1], home := some ⟨1, 0⟩ })).setCtx 1
      (some { chain (.waitStore .bufferList) with
        tag := 2#8, cur := 0, entries := [.seek ⟨2, 0⟩, .read 0 1], home := some ⟨2, 0⟩ })) with
    bufWait := [⟨.context 0, 7, ⟨1, 0⟩⟩, ⟨.context 1, 7, ⟨2, 0⟩⟩]
    buffers := Vector.ofFn fun b => if b.val < 4 then { Buffer.powerOn with
      assigned := some (0, ⟨⟨b.val, by omega⟩, 0⟩), relocPin := true } else s.buffer b }

/-- The last pin of a CLEAN buffer goes: one requester gains it, and a DIRTY buffer is reclaimed for the other (R121). -/
theorem test_last_pin : (let t := after (.halt 3 255#8) lastPin
    (t.bufWait, (t.buffer 5).assigned, decide ((t.buffer 4).destage = .none))) =
    ([⟨.context 1, 7, ⟨2, 0⟩⟩], some (7, ⟨1, 0⟩), false) := by decide +kernel

/-- Drive 7 being lost, its relocation before context 1 of drive 0 on the Buffer Wait List. Contexts 15 and 14 of drive
7 are the last to pin buffers 5 and 4. -/
def losing : State :=
  let pinning := fun n b => { chain .waitLink with buffer := some b, tag := n, order := n.toNat }
  { ((((running (pinning 0#8 5) (armIn .recalibrating served)).setCtx 14 (some (pinning 1#8 4))).setCtx 1
      (some { chain (.waitStore .bufferList) with
        drive := 0, tag := 2#8, cur := 0, entries := [.seek ⟨2, 0⟩, .read 0 1], home := some ⟨2, 0⟩ })).modTracks 7
      fun t => { t with reloc := some ⟨⟨1, 0⟩, ⟨1, 0⟩, none, .waitBuffer, none, [], false⟩ }).modDrive 7
      fun r => { r with cyl := none } with
    bufWait := [⟨.relocation, 7, ⟨1, 0⟩⟩, ⟨.context 1, 0, ⟨2, 0⟩⟩]
    buffers := Vector.ofFn fun b => if b.val < 4 then { Buffer.powerOn with
      assigned := some (0, ⟨⟨10 + b.val, by omega⟩, 0⟩), relocPin := true } else
      { Buffer.powerOn with assigned := some (7, ⟨⟨10 + b.val, by omega⟩, 0⟩) } }

/-- The relocation of a lost drive leaves the Buffer Wait List before any buffer becomes available (R123). -/
theorem test_waiter_leaves : (let t := after (.recalibrateTimeout 7) losing
    (t.bufWait, (t.buffer 5).assigned, (t.track 7).reloc.isSome, (t.ctx 1).bind (·.buffer))) =
    ([], some (0, ⟨2, 0⟩), false, some 5) := by decide +kernel

/-- The items of a link's set, in age order. -/
def itemsOf (l : LinkNo) (s : State) : List ItemBody := (s.present.get l).items.map (·.body)

/-- Drive 7 transferring for context 0, under DISCARD, with a chain of CL2 accepted after it. CL2 waits for a context. -/
def dropping : State :=
  { ((armIn .transferring served).setCtx 0 (some { chain .active with link := none, stop := .discard })).setCtx 1
      (some { chain .queued with link := some 2, order := 1 }) with ctxWait := [2] }

/-- At NOT-READY the endings join a set before the CONTROLLER-FREE of a chain accepted earlier (R14, R49). -/
theorem test_endings_first : itemsOf 2 (after (.notReady 7) dropping) = [.ending 7 1, .controllerFree] := by decide +kernel

/-- Drive 7 about to come ready, short of spares under the policy that waits. -/
def comingReady7 : State :=
  (served.modDrive 7 fun r =>
    { r with arm := .recalibrating, cyl := some 0, recalReason := some .comingReady
             pending := some { r.policy with spareLowMark := 15 } }).modTracks 7 fun t =>
    { t with pool := Vector.replicate 40 .retired }

/-- DRIVE-READY joins a set before the SPARES-LOW of the policy that becomes current (R49). -/
theorem test_ready_first : itemsOf 3 (after (.index 7) comingReady7) = [.driveReady 7, .sparesLow 7] := by decide +kernel

/-! Premises over all contexts, from a check of the Context Table. -/

theorem everyCtx {s : State} {p : CtxNo → Context → Bool}
    (h : (allCtxs.all fun c => (s.ctx c).all (p c)) = true) : ∀ c x, s.ctx c = some x → p c x = true := by
  intro c x hx
  have hc : c ∈ allCtxs := (by decide : ∀ k : CtxNo, k ∈ allCtxs) c
  have := List.all_eq_true.mp h c hc
  simpa [hx] using this

theorem forallCtx {s : State} {P : CtxNo → Context → Prop} [∀ c x, Decidable (P c x)] :
    (∀ c x, s.ctx c = some x → P c x) ↔ ∀ c, (s.ctx c).all (fun x => decide (P c x)) = true := by
  refine forall_congr' fun c => ?_
  cases s.ctx c <;> simp

theorem pinnedByOther_iff {c : CtxNo} {x : Context} {s : State} : pinnedByOther c x s ↔
    ∀ b, x.buffer = some b → ∃ k, k ≠ c ∧ (s.ctx k).any (fun y => y.buffer == some b) = true := by
  simp [pinnedByOther, Option.any_eq_true]

theorem noMapCursor_of {d : DriveNo} {s : State} (h : ∀ l, (s.port l).cursor = none) : noMapCursor d s := by
  intro l last stale
  simp [h l]

/-! Witnesses: states and operands that meet the premises of the statements, clause by clause. -/

/-- CL3 holds drive 7, CL0 and CL1 wait. -/
def queued3 : State := reserved (some 3) [0, 1] served

theorem witness_StepRunsFrontCommand :
    ({ served with pending := [.accept 0, .defer 3] } : State).pending = .accept 0 :: [.defer 3] ∧
    served.pending = [] ∧ served.work = [] := ⟨rfl, rfl, rfl⟩

theorem witness_PowerOnClearLine : ({ served with clearLine := true } : State).clearLine = true ∧
    Instr.linkDown 3 ≠ .powerOnClear := by decide

theorem witness_ReservationLawKept : reservationLaw { queued3 with pending := [.linkReset 3] } ∧
    ∃ t, step { queued3 with pending := [.linkReset 3] } = .next t := by
  refine ⟨?_, _, rfl⟩
  unfold reservationLaw
  decide +kernel

theorem witness_AuthorityLawKept : authorityLaw { attached with pending := [.linkDown 3] } ∧
    ∃ t, step { attached with pending := [.linkDown 3] } = .next t := by
  refine ⟨?_, _, rfl⟩
  unfold authorityLaw
  decide +kernel

/-- Buffer 5 with two sectors, one dirty. -/
def stored5 : State := filled [(0, ⟨[1#8], false, false⟩), (15, ⟨[2#8], true, false⟩)] .none served

theorem witness_BufferLawsKept : (storeLaw { stored5 with pending := [.notReady 7] } ∧
    lruLaw { stored5 with pending := [.notReady 7] } ∧ bufferLaw { stored5 with pending := [.notReady 7] }) ∧
    ∃ t, step { stored5 with pending := [.notReady 7] } = .next t := by
  refine ⟨⟨?_, ?_, ?_⟩, _, rfl⟩
  · unfold storeLaw; decide +kernel
  · unfold lruLaw; decide +kernel
  · unfold bufferLaw; decide +kernel

/-- Drive 7 fenced, OFF-TRACK present. -/
def fenced7 : State :=
  fenced ⟨true, ⟨false, true, false, false⟩, true, false, some .writeInhibit, true⟩ (armIn .fenced attached)

theorem witness_FenceLawKept : fenceLaw { fenced7 with pending := [.fenceClear 3 0#8 [7#8]] } ∧
    ∃ t, step { fenced7 with pending := [.fenceClear 3 0#8 [7#8]] } = .next t := by
  refine ⟨?_, _, rfl⟩
  unfold fenceLaw
  decide +kernel

/-- CL3 offers a notice. -/
def offering3 : State := linkIn (.offering 4) (holding [⟨2, .driveReady 0, false⟩, ⟨4, .suspectListFull, false⟩] served)

theorem witness_OfferLawKept : offerLaw { offering3 with pending := [.defer 3] } ∧
    ∃ t, step { offering3 with pending := [.defer 3] } = .next t := by
  refine ⟨?_, _, rfl⟩
  intro l age h
  by_cases e : l = 3
  · subst e
    have : age = 4 := by simpa using h.symm.trans (by rfl : (State.port _ 3).state = .offering 4)
    subst this
    exact ⟨⟨4, .suspectListFull, false⟩, by decide +kernel, rfl⟩
  · have : ∀ k : LinkNo, k ≠ 3 → (State.port { offering3 with pending := [.defer 3] } k).state = .idle := by
      decide +kernel
    rw [this l e] at h
    cases h

theorem witness_SentStands : ∃ t, exec (.ready 7) State.reset = .next t := ⟨_, rfl⟩

theorem witness_InstallationFrame : ∃ t, exec (.linkDown 3) attached = .next t := ⟨_, rfl⟩

theorem witness_FrameTurnedAway : (calm offering3 ∧ engaged 3 offering3) ∧
    (calm (linkIn (.connected 15 .toHost) served) ∧ engaged 3 (linkIn (.connected 15 .toHost) served)) ∧
    calm (linkIn .down served) ∧ ((linkIn .down served).port 3).state = .down :=
  ⟨⟨⟨rfl, rfl⟩, .inl ⟨4, rfl⟩⟩, ⟨⟨rfl, rfl⟩, .inr ⟨15, .toHost, rfl⟩⟩, ⟨rfl, rfl⟩, rfl⟩

theorem witness_ChainRefusedAtOnce : atIdle 3 served ∧ 8 ≤ (8#4).toNat ∧ 8 ≤ (14#4).toNat ∧ 14#4 ≠ 15#4 ∧
    readChain 9#8 [] = .bad none ∧ readChain 1#8 [7#8, 0#8, 0#8, 0#8] = .bad (some 0) ∧
    readChain 1#8 [6#8, 0#8, 0#8, 0#8] = .good [.sense] := by
  refine ⟨⟨⟨rfl, rfl⟩, rfl⟩, ?_⟩
  decide +kernel

theorem witness_TagInUse :
    ∃ c x, (running (chain .ending) served).ctx c = some x ∧ x.link = some 3 ∧ x.tag = 255#8 :=
  ⟨15, chain .ending, by decide +kernel, rfl, rfl⟩

/-- CL3 is BARRED from drive 7. -/
def barred : State := { served with paths := put served.paths 3 (Vector.replicate 8 false) }

theorem witness_NoPath : tagFree 3 254#8 (running (chain .ending) barred) ∧
    (running (chain .ending) barred).allowed 3 7 = false :=
  ⟨fun c x hx hl ht => by
    have := everyCtx (p := fun _ x => x.tag != 254#8) (s := running (chain .ending) barred) (by decide +kernel) c x hx
    simp [ht] at this, by decide +kernel⟩

theorem witness_ReserveDecides :
    (reaches5 3 7 5#8 1#8 [4#8, 0#8, 0#8, 0#8] [.reserve false] served ∧ (served.resv.get 7).holder = none) ∧
    (reaches5 3 7 5#8 1#8 [4#8, 1#8, 0#8, 0#8] [.reserve true] queued3 ∧ (queued3.resv.get 7).holder = some 3) ∧
    (reaches5 2 7 5#8 1#8 [4#8, 0#8, 0#8, 0#8] [.reserve false] queued3 ∧ (3 : LinkNo) ≠ 2) ∧
    (reaches5 1 7 5#8 1#8 [4#8, 1#8, 0#8, 0#8] [.reserve true] queued3 ∧ 1 ∈ (queued3.resv.get 7).waitList) ∧
    (reaches5 2 7 5#8 1#8 [4#8, 1#8, 0#8, 0#8] [.reserve true] queued3 ∧ 2 ∉ (queued3.resv.get 7).waitList) := by
  simp only [reaches5, atIdle, calm, tagFree, forallCtx]
  decide +kernel

theorem witness_ReleaseAndSense :
    (reaches5 3 7 5#8 1#8 [5#8, 0#8, 0#8, 0#8] [.release] (reserved (some 3) [] served) ∧
      ((reserved (some 3) [] served).resv.get 7) = ⟨some 3, []⟩) ∧
    (reaches5 3 7 5#8 1#8 [5#8, 0#8, 0#8, 0#8] [.release] queued3 ∧ queued3.resv.get 7 = ⟨some 3, 0 :: [1]⟩) ∧
    (reaches5 1 7 5#8 1#8 [5#8, 0#8, 0#8, 0#8] [.release] queued3 ∧ (queued3.resv.get 7).holder ≠ some 1 ∧
      1 ∈ (queued3.resv.get 7).waitList) ∧
    (reaches5 2 7 5#8 1#8 [5#8, 0#8, 0#8, 0#8] [.release] queued3 ∧ (queued3.resv.get 7).holder ≠ some 2 ∧
      2 ∉ (queued3.resv.get 7).waitList) ∧
    reaches5 2 7 5#8 1#8 [6#8, 0#8, 0#8, 0#8] [.sense] queued3 := by
  simp only [reaches5, atIdle, calm, tagFree, forallCtx]
  decide +kernel

/-- A Command Frame of two entries: SEEK 599/9 and a READ or WRITE of sector 15. -/
def seekBody (code : Byte) : List Byte := [1#8, 2#8, 87#8, 9#8, code, 15#8, 1#8, 0#8]

/-- The first n contexts taken by chains of drive 7. -/
def loaded7 (n : Nat) : State :=
  { served with contexts := Vector.ofFn fun c => if c.val < n then some (chain .queued) else none }

/-- All contexts taken, those from the eighth on by drive 0. -/
def full16 : State :=
  { served with contexts := Vector.ofFn fun c =>
      if c.val < 7 then some (chain .queued) else some { chain .queued with drive := 0 } }

theorem witness_DriveChainChecks :
    (reaches5 3 7 5#8 2#8 (seekBody 2#8) [.seek ⟨599, 9⟩, .read 15 1] (armIn .notReady served) ∧
      ((armIn .notReady served).drive 7).arm = .notReady) ∧
    (reaches5 3 7 5#8 2#8 (seekBody 2#8) [.seek ⟨599, 9⟩, .read 15 1] (armIn .idle State.reset) ∧
      ((armIn .idle State.reset).track 7).map ≠ .loaded) ∧
    (reaches5 3 7 5#8 2#8 (seekBody 2#8) [.seek ⟨599, 9⟩, .read 15 1] fenced7 ∧ (fenced7.fence 7).flag = true) ∧
    (reaches5 3 7 5#8 2#8 (seekBody 2#8) [.seek ⟨599, 9⟩, .read 15 1] (reserved (some 0) [] served) ∧
      ((reserved (some 0) [] served).resv.get 7).holder = some 0) ∧
    (reaches5 3 7 5#8 2#8 (seekBody 2#8) [.seek ⟨599, 9⟩, .read 15 1] (loaded7 8) ∧ 8 ≤ driveLoad (loaded7 8) 7) ∧
    (reaches5 3 7 5#8 2#8 (seekBody 2#8) [.seek ⟨599, 9⟩, .read 15 1] full16 ∧ admits 3 7 full16 ∧
      ∀ c, full16.ctx c ≠ none) := by
  simp only [reaches5, atIdle, calm, tagFree, forallCtx, admits]
  decide +kernel

theorem witness_DriveChainAccepted :
    reaches5 3 7 5#8 2#8 (seekBody 2#8) [.seek ⟨599, 9⟩, .read 15 1] (loaded7 7) ∧ admits 3 7 (loaded7 7) ∧
    (loaded7 7).ctx 7 = none ∧ ∀ k, k < 7 → (loaded7 7).ctx k ≠ none := by
  simp only [reaches5, atIdle, calm, tagFree, forallCtx, admits]
  decide +kernel

/-- Drive 7 seeking, and buffers 0 to 4 in use. -/
def busy7 : State :=
  { armIn .seeking served with buffers := Vector.ofFn fun b =>
      if b.val < 5 then { Buffer.powerOn with assigned := some (0, ⟨⟨b.val, by omega⟩, 0⟩) } else Buffer.powerOn }

theorem witness_FirstStepStarts : admits 3 7 busy7 ∧ busy7.ctx 0 = none ∧ (∀ k, k < 0 → busy7.ctx k ≠ none) ∧
    (∀ k, (busy7.buffer k).assigned ≠ some (7, ⟨599, 9⟩)) ∧ (busy7.buffer 5).assigned = none ∧
    (∀ k, k < 5 → (busy7.buffer k).assigned ≠ none) ∧
    reaches5 3 7 5#8 2#8 (seekBody 3#8) [.seek ⟨599, 9⟩, .write 15 1] busy7 ∧
    reaches5 3 7 5#8 2#8 (seekBody 2#8) [.seek ⟨599, 9⟩, .read 15 1] busy7 ∧
    (busy7.drive 7).arm ≠ .idle ∧ lostOf (busy7.track 7) ⟨599, 9⟩ = [] := by
  simp only [reaches5, atIdle, calm, tagFree, forallCtx, admits]
  decide +kernel

/-- CL3 connected to context 15, which stages two sectors into buffer 5. -/
def staging : Context :=
  { chain .connected with entries := [.seek ⟨599, 9⟩, .write 14 2], cur := 0, buffer := some 5, expected := [14, 15] }

/-- The state of that connection. -/
def receiving (x : Context) : State :=
  (linkIn (.connected 15 .toController) (running x (filled [] .none served))).modBuffer 5 fun r =>
    { r with parityForce := true }

theorem witness_DataFrameStored :
    (calm (receiving staging) ∧ ((receiving staging).port 3).state = .connected 15 .toController ∧
      (receiving staging).ctx 15 = some staging ∧ staging.expected = 14 :: [15] ∧
      ((receiving staging).buffer 5).assigned = some (7, ⟨599, 9⟩) ∧ noFlush 7 (receiving staging)) ∧
    ((receiving { staging with expected := [15] }).ctx 15 = some { staging with expected := 15 :: [] } ∧
      noFlush 7 (receiving { staging with expected := [15] })) ∧
    (byteOf 13).toNat ≠ (14 : SectorNo).val := by
  simp only [calm, noFlush, forallCtx]
  decide +kernel

theorem witness_OutOfTurnDisregarded :
    (calm served ∧ (∀ age, (served.port 3).state ≠ .offering age) ∧
      (∀ c, (served.port 3).state ≠ .connected c .toController) ∧ ∀ c, (served.port 3).state ≠ .connected c .toHost) ∧
    (∀ c, ((linkIn (.connected 15 .toHost) served).port 3).state ≠ .connected c .toController) ∧
    ((linkIn .down served).port 3).state = .down :=
  ⟨⟨⟨rfl, rfl⟩, fun age h => LinkState.noConfusion (show LinkState.idle = .offering age from h), by decide +kernel, by decide +kernel⟩,
    by decide +kernel, rfl⟩

theorem witness_FrameCheckDecides : checked (withCheck [3#8]) = some [3#8] ∧ checked [3#8, 0#8, 0#8] = none ∧
    checked [] = none ∧ calm served := by
  refine ⟨by decide +kernel, by decide +kernel, by decide +kernel, rfl, rfl⟩

/-- CL3 offers an item, and CL0 and CL2 wait for a context. -/
def offers (b : ItemBody) (ended : Bool) (s : State) : State :=
  { linkIn (.offering 4) (holding [⟨2, .driveReady 0, false⟩, ⟨4, b, ended⟩] s) with ctxWait := [2, 0] }

theorem witness_AcceptTakesOffer :
    (calm (offers (.ending 7 15) false (running (chain .ending) served)) ∧
      offered (offers (.ending 7 15) false (running (chain .ending) served)) 3 = some ⟨4, .ending 7 15, false⟩) ∧
    offered (offers (.reconnect 7 15 .toController 1) false (running (chain .staging) served)) 3 =
      some ⟨4, .reconnect 7 15 .toController 1, false⟩ ∧
    offered (offers .suspectListFull false served) 3 = some ⟨4, .suspectListFull, false⟩ := by
  simp only [calm]
  decide +kernel

/-- CL3 offers a loss while another of the same identity waits. -/
def merging : State :=
  linkIn (.offering 4) (holding
    [⟨2, .bufferDataLost 7 ⟨599, 9⟩ [15], false⟩, ⟨4, .bufferDataLost 7 ⟨599, 9⟩ [0], false⟩] served)

theorem witness_FloorMoves : (calm served ∧ (served.port 3).state ≠ .down) ∧
    offered (offers (.sparesLow 7) true served) 3 = some ⟨4, .sparesLow 7, true⟩ ∧
    (∀ j ∈ ((offers .suspectListFull false served).present.get 3).items, j.age ≠ 4 →
      j.body.same .suspectListFull = false) ∧
    offered merging 3 = some ⟨4, .bufferDataLost 7 ⟨599, 9⟩ [0], false⟩ ∧
    ((merging.present.get 3).items.find? fun k => k.age != 4 && k.body.same (.bufferDataLost 7 ⟨599, 9⟩ [0])) =
      some ⟨2, .bufferDataLost 7 ⟨599, 9⟩ [15], false⟩ := by
  simp only [calm]
  decide +kernel

/-- Another chain that pins buffer 5. -/
def partner : Context := { chain .waitLink with tag := 1#8, buffer := some 5 }

/-- Context 15's chain with buffer 5, which the other chain pins too. -/
def sharing (st : CtxState) (s : State) : State :=
  (running { chain st with buffer := some 5 } (filled [(15, ⟨[2#8], true, false⟩)] .none s)).setCtx 14 (some partner)

theorem witness_HaltAnswered : (calm served ∧ (served.port 3).state ≠ .down ∧ tagFree 3 255#8 served) ∧
    ((running (chain .ending) served).ctx 15 = some (chain .ending) ∧
      ∀ k y, (running (chain .ending) served).ctx k = some y → y.link = some 3 → y.tag = 255#8 → k = 15) ∧
    ((running { chain .active with stop := .halt } served).ctx 15 = some { chain .active with stop := .halt } ∧
      ∀ k y, (running { chain .active with stop := .halt } served).ctx k = some y → y.link = some 3 →
        y.tag = 255#8 → k = 15) ∧
    ((running (chain .active) (armIn .transferring served)).ctx 15 = some (chain .active) ∧
      ((running (chain .active) (armIn .transferring served)).drive (chain .active).drive).arm = .transferring ∧
      ∀ k y, (running (chain .active) (armIn .transferring served)).ctx k = some y → y.link = some 3 →
        y.tag = 255#8 → k = 15) := by
  simp only [calm, tagFree, forallCtx]
  decide +kernel

/-- What a Halt that ends its chain at once asks of the chain's state. -/
def haltable (st : CtxState) (s : State) : Prop :=
  calm (sharing st s) ∧ ((sharing st s).port 3).state ≠ .down ∧
  (sharing st s).ctx 15 = some { chain st with buffer := some 5 } ∧
  (∀ k y, (sharing st s).ctx k = some y → y.link = some 3 → y.tag = 255#8 → k = 15) ∧
  pinnedByOther 15 { chain st with buffer := some 5 } (sharing st s)

/-- CL3 connected to context 15 for a delivery. -/
def linked : State := linkIn (.connected 15 .toHost) served

theorem witness_HaltAnswered_ends :
    (haltable .queued served ∧ haltable .staging served ∧ haltable .waitLink served ∧ haltable .connected linked ∧
      haltable (.waitStore .flush) served ∧ haltable .active (armIn .settling served) ∧
      haltable .active (armIn .seeking served) ∧ haltable .active (armIn .orienting served) ∧
      ((sharing .active (armIn .orienting served)).drive 7).cyl ≠ none ∧
      noWork 7 (sharing .active (armIn .orienting served))) ∧
    ∀ k way, ((sharing .connected linked).port k).state = .connected 15 way → k = 3 := by
  refine ⟨?_, fun k way => ?_⟩
  · and_intros
    all_goals try simp only [pinnedByOther_iff, forallCtx]
    all_goals decide +kernel
  · cases way <;> revert k <;> decide +kernel

theorem witness_LinkResetDownUp : (calm queued3 ∧ (queued3.port 3).state ≠ .down ∧
      ∀ c x, queued3.ctx c = some x → x.link ≠ some 3) ∧
    calm (linkIn .down served) ∧ ((linkIn .down served).port 3).state = .down := by
  simp only [calm, forallCtx]
  decide +kernel

/-- Two chains that pin buffer 5, one staging. -/
def timing : State := (receiving staging).setCtx 14 (some { chain .queued with tag := 1#8, buffer := some 5 })

theorem witness_DataTimeoutEndsChain : calm timing ∧ (timing.port 3).state = .connected 15 .toController ∧
    (∀ j dir, (timing.port j).state = .connected 15 dir → j = 3) ∧ timing.ctx 15 = some staging ∧
    timing.ctx 14 = some { chain .queued with tag := 1#8, buffer := some 5 } ∧ (14 : CtxNo) ≠ 15 := by
  refine ⟨⟨rfl, rfl⟩, by decide +kernel, ?_, by decide +kernel, by decide +kernel, by decide⟩
  intro j dir
  cases dir <;> revert j <;> decide +kernel

/-- A delivery from buffer 5: a fill sector, then sector 15. -/
def delivering (ds : List (SectorNo × Bool)) (cond : Option Condition) : State :=
  linkIn (.connected 15 .toHost) (running { chain .connected with buffer := some 5, deliver := ds, deliverCond := cond }
    (filled [(15, ⟨[2#8], true, false⟩)] .none served))

theorem witness_DeliverySends :
    (calm (delivering [(14, true), (15, false)] (some .lostSector)) ∧
      ((delivering [(14, true), (15, false)] (some .lostSector)).port 3).state = .connected 15 .toHost) ∧
    (∃ dirty, ((delivering [(15, false)] none).buffer 5).cell 15 = some ⟨[2#8], dirty, false⟩) ∧
    (∃ x, (delivering [(15, false)] none).ctx 15 = some x ∧ x.deliver = [(15, false)] ∧ x.deliverCond = none) ∧
    ∃ x, (delivering [(15, false)] (some .dataCheck)).ctx 15 = some x ∧ x.deliver = [(15, false)] ∧
      x.deliverCond = some .dataCheck :=
  ⟨⟨⟨rfl, rfl⟩, rfl⟩, ⟨true, by decide +kernel⟩, ⟨_, rfl, rfl, rfl⟩, _, rfl, rfl, rfl⟩

theorem witness_ManagementChecks : atIdle 3 served ∧ (served.auth.get 3).full = false ∧
    (8 ≤ (8#8).toNat ∧ (8#8).toNat ≤ 22) ∧ (8 ≤ (22#8).toNat ∧ (22#8).toNat ≤ 22) ∧
    (atIdle 3 attached ∧ (attached.auth.get 3).full = true ∧ operandFits 22 [0#8] = false ∧
      operandFits 1 [0#8] = false ∧ operandFits 11 [7#8, 2#8] = false) ∧
    (0#8).toNat < 1 ∧ 22 < (23#8).toNat := by
  simp only [atIdle, calm]
  decide +kernel

/-- The identity that the switches at zero match. -/
def zeros : List Byte := List.replicate 8 0#8

theorem witness_AttachDecision : zeros.length = 8 ∧
    (atIdle 3 (attached.modAuth 3 fun _ => ⟨false, true⟩) ∧
      ((attached.modAuth 3 fun _ => ⟨false, true⟩).auth.get 3).locked = true) ∧
    (atIdle 3 attached ∧ (attached.auth.get 3).locked = false ∧ attached.attachMemory = true) ∧
    (atIdle 3 served ∧ (served.auth.get 3).locked = false ∧ served.attachMemory = false ∧
      zeros = served.switches.toList ∧ List.replicate 8 255#8 ≠ served.switches.toList) := by
  simp only [atIdle, calm]
  decide +kernel

theorem witness_StatusRead : atIdle 3 served ∧ 8 ≤ (8#8).toNat ∧ 8 ≤ (255#8).toNat := by
  simp only [atIdle, calm]
  decide +kernel

/-- Drive 7 with a map of one entry, and a cursor on CL3. -/
def mapped (k : Option Cursor) : State :=
  (served.modTracks 7 fun t =>
    { t with entries := [⟨⟨599, 9⟩, 39, [15]⟩], pool := put (put t.pool 39 .inUse) 38 .retired }).modPort 3 fun p =>
    { p with cursor := k }

/-- A Suspect Track List of two entries, and a cursor on CL3. -/
def suspected (k : Option Cursor) : State :=
  { attached with suspects := [⟨7, ⟨0, 0⟩, 15, .placed, false, false⟩, ⟨7, ⟨599, 9⟩, 1, .detected, false, true⟩] }.modPort
    3 fun p => { p with cursor := k }

theorem witness_CursorReads :
    (atIdle 3 (armIn .notReady State.reset) ∧ ((armIn .notReady State.reset).track 7).map ≠ .loaded) ∧
    (atIdle 3 (mapped none) ∧ ((mapped none).track 7).map = .loaded ∧
      ∀ last stale, ((mapped none).port 3).cursor = some (.map 7 last stale) → last = none ∧ stale = false) ∧
    (atIdle 3 (mapped (some (.map 7 none true))) ∧
      ((mapped (some (.map 7 none true))).port 3).cursor = some (.map 7 none true)) ∧
    (atIdle 3 (mapped (some (.map 7 (some (.entry ⟨599, 9⟩)) false))) ∧
      ((mapped (some (.map 7 (some (.entry ⟨599, 9⟩)) false))).port 3).cursor =
        some (.map 7 (some (.entry ⟨599, 9⟩)) false)) ∧
    (atIdle 3 (suspected none) ∧
      ∀ last stale, ((suspected none).port 3).cursor = some (.suspect last stale) → last = none ∧ stale = false) ∧
    (atIdle 3 (suspected (some (.suspect none true))) ∧
      ((suspected (some (.suspect none true))).port 3).cursor = some (.suspect none true)) ∧
    (atIdle 3 (suspected (some (.suspect (some (7, ⟨0, 0⟩)) false))) ∧
      (suspected (some (.suspect (some (7, ⟨0, 0⟩)) false))).suspects =
        [] ++ ⟨7, ⟨0, 0⟩, 15, .placed, false, false⟩ :: [⟨7, ⟨599, 9⟩, 1, .detected, false, true⟩]) := by
  have m : ((mapped none).port 3).cursor = none := rfl
  have u : ((suspected none).port 3).cursor = none := rfl
  simp only [atIdle, calm, m, u, reduceCtorEq, false_implies, implies_true, and_true]
  decide +kernel

theorem witness_BufferAndCaptureRead : atIdle 3 { stored5 with
    capture := some ⟨5, 7, ⟨599, 9⟩, 15, true, .destage, true⟩, further := 255 } := ⟨⟨rfl, rfl⟩, rfl⟩

/-- A Notice Priority Table whose levels are all 15. -/
def levels15 : List Byte := List.replicate 13 15#8

theorem witness_PriorityWrite : levels15.length = 13 ∧ 4 ≤ (4#8).toNat ∧ (readLevels levels15).isSome = true ∧
    readLevels (0#8 :: List.replicate 12 15#8) = none ∧ readLevels (List.replicate 13 16#8) = none ∧
    (atIdle 3 served ∧ (served.auth.get 3).full = false ∧ (0 : LinkNo) ≠ 3) ∧
    (atIdle 3 attached ∧ (attached.auth.get 3).full = true) := by
  simp only [atIdle, calm]
  decide +kernel

/-- A Path Table row that bars drive 7 only. -/
def row7 : List Byte := [0#8, 0#8, 0#8, 0#8, 0#8, 0#8, 0#8, 1#8]

theorem witness_PathWrite : (readRow row7).isSome = true ∧
    readRow row7 = some (put (attached.paths.get 0) 7 false) ∧ (attached.paths.get 0).get 7 = true ∧
    (atFull 3 attached ∧ (attached.resv.get 7).holder ≠ some 0 ∧ 0 ∉ (attached.resv.get 7).waitList) ∧
    (atFull 3 (reserved (some 0) [1] attached) ∧ ((reserved (some 0) [1] attached).resv.get 7).holder = some 0) ∧
    (atFull 3 (reserved (some 1) [0, 2] attached) ∧
      ((reserved (some 1) [0, 2] attached).resv.get 7).holder ≠ some 0) := by
  simp only [atFull, atIdle, calm]
  decide +kernel

/-- The fields of a policy with every number at its highest value but the Spare Low Mark. -/
def fields15 : List Byte := [15#8, 15#8, 15#8, 7#8, 0#8, 1#8, 1#8, 15#8, 4#8, 15#8, 2#8, 1#8]

theorem witness_PolicyWrite : fields15.length = 12 ∧
    readPolicy fields15 = some ⟨15, 15, 15, 7, .through, true, true, 15, 4, ⟨true, true, true, true⟩, .isolate, true⟩ ∧
    (atFull 3 fenced7 ∧ (fenced7.fence 7).flag = true ∧ (fenced7.drive 7).arm ≠ .idle) ∧
    (atFull 3 attached ∧ (attached.fence 7).causes.meets ⟨true, true, true, true⟩ = false ∧
      (attached.fence 7).forced = false ∧ (attached.drive 7).arm = .idle ∧
      4 = (attached.policy 7).spareLowMark) := by
  simp only [atFull, atIdle, calm]
  decide +kernel

/-- A relocation in READ_OLD. -/
def moving : Relocation := ⟨⟨599, 9⟩, ⟨599, 9⟩, none, .readOld, some 5, [], false⟩

/-- Drive 7 relocating. -/
def moving7 : State := attached.modTracks 7 fun t => { t with reloc := some moving }

theorem witness_MapBegin :
    (atFull 3 (armIn .notReady attached) ∧ ((armIn .notReady attached).drive 7).arm = .notReady) ∧
    (atFull 3 moving7 ∧ (moving7.drive 7).arm ≠ .notReady ∧ (moving7.track 7).reloc ≠ none) ∧
    (atFull 3 (running (chain .queued) attached) ∧ 0 < driveLoad (running (chain .queued) attached) 7) ∧
    (atFull 3 attached ∧ driveLoad attached 7 = 0 ∧ (attached.track 7).reloc = none ∧
      (∀ b, (attached.buffer b).ofDrive 7 = false) ∧ (attached.track 7).sparesLow = false ∧ noMapCursor 7 attached ∧
      attached.bufWait = []) := by
  refine ⟨?_, ?_, ?_, ?_, ?_, ?_, ?_, ?_, noMapCursor_of ?_, ?_⟩
  all_goals try simp only [atFull, atIdle, calm]
  all_goals decide +kernel

/-- Drive 7 with its map LOADING: one entry and one retired spare. -/
def loading : State :=
  attached.modTracks 7 fun t => { t with map := .loading, entries := [⟨⟨0, 0⟩, 0, []⟩], retired := [1] }

theorem witness_MapLoadCommit : (atFull 3 attached ∧ (attached.track 7).map ≠ .loading) ∧
    (atFull 3 loading ∧ (loading.track 7).map = .loading ∧ (loading.track 7).sparesLow = false ∧
      noMapCursor 7 loading ∧
      (loading.policy 7).spareLowMark < spareCount { loading.track 7 with pool := (Vector.ofFn fun i =>
        if i ∈ (loading.track 7).entries.map (·.spare) then .inUse
        else if i ∈ (loading.track 7).retired then .retired else .free) } .free) ∧
    readHome 2#8 87#8 9#8 = some ⟨599, 9⟩ ∧ readHome 2#8 88#8 9#8 = none ∧ readHome 0#8 0#8 0#8 = some ⟨0, 0⟩ ∧
    40 ≤ (40#8).toNat ∧ (39#8 : Byte) = byteOf (39 : SpareNo).val ∧
    (0 : SpareNo) ∈ (loading.track 7).entries.map (·.spare) ∧ (1 : SpareNo) ∈ (loading.track 7).retired ∧
    ((39 : SpareNo) ∉ (loading.track 7).entries.map (·.spare) ∧ (39 : SpareNo) ∉ (loading.track 7).retired) ∧
    (⟨0, 0⟩ : HomeTrack) ∈ (loading.track 7).entries.map (·.home) ∧
    (⟨599, 9⟩ : HomeTrack) ∉ (loading.track 7).entries.map (·.home) := by
  refine ⟨?_, ⟨?_, ?_, ?_, noMapCursor_of ?_, ?_⟩, ?_⟩
  all_goals try simp only [atFull, atIdle, calm]
  all_goals decide +kernel

/-- Drive 7 seeking, CL3 FULL, buffers 0 to 4 in use. -/
def busyFull : State := { busy7 with auth := attached.auth, attachMemory := true }

theorem witness_RelocateCreates : readHome 2#8 87#8 9#8 = some ⟨599, 9⟩ ∧
    (atFull 3 loading ∧ (loading.track 7).map ≠ .loaded) ∧
    (atFull 3 moving7 ∧ (moving7.track 7).map = .loaded ∧ (moving7.track 7).reloc ≠ none) ∧
    (atFull 3 busyFull ∧ (busyFull.track 7).map = .loaded ∧ (busyFull.track 7).reloc = none ∧
      (busyFull.track 7).pool.get 39 = .free ∧ (∀ k, (busyFull.buffer k).assigned ≠ some (7, ⟨599, 9⟩)) ∧
      (busyFull.buffer 5).assigned = none ∧ (∀ k, k < 5 → (busyFull.buffer k).assigned ≠ none) ∧
      (∀ c x, busyFull.ctx c = some x → x.buffer ≠ some 5) ∧ (busyFull.drive 7).arm ≠ .idle) := by
  simp only [atFull, atIdle, calm, forallCtx]
  decide +kernel

/-- Sixteen suspect entries. -/
def suspects16 : State :=
  { attached with suspects := List.ofFn fun i : Fin 16 => ⟨7, ⟨⟨i.val, by omega⟩, 0⟩, 1, .detected, false, false⟩ }

theorem witness_SuspectPlaceRemove : readHome 2#8 87#8 9#8 = some ⟨599, 9⟩ ∧ 15 < (16#8).toNat ∧
    (15#8).toNat ≤ 15 ∧
    (atFull 3 suspects16 ∧ (suspects16.track 7).map = .loaded ∧ 16 ≤ suspects16.suspects.length) ∧
    (atFull 3 (suspected none) ∧ ∃ e ∈ (suspected none).suspects, e.drive = 7 ∧ e.home = ⟨599, 9⟩) ∧
    (atFull 3 attached ∧ (attached.track 7).map = .loaded ∧
      (¬∃ e ∈ attached.suspects, e.drive = 7 ∧ e.home = ⟨599, 9⟩) ∧ attached.suspects.length < 16 ∧
      (2#8).toNat < (attached.policy 7).spareThreshold ∧ (attached.policy 7).spareThreshold ≤ (3#8).toNat ∧
      (attached.policy 7).autoSpare = false) := by
  simp only [atFull, atIdle, calm]
  decide +kernel

/-- Drive 7 releasing its fence. -/
def releasing : State :=
  fenced ⟨false, ⟨false, false, false, false⟩, false, true, some .writeInhibit, true⟩ (armIn .fenced attached)

theorem witness_FenceForce : (atFull 3 fenced7 ∧ (fenced7.fence 7).flag = true) ∧
    (atFull 3 releasing ∧ (releasing.fence 7).flag = false ∧ (releasing.fence 7).releasePending = true) ∧
    (atFull 3 (armIn .notReady attached) ∧ ((armIn .notReady attached).fence 7).flag = false ∧
      ((armIn .notReady attached).fence 7).releasePending = false ∧
      ((armIn .notReady attached).drive 7).arm = .notReady ∧
      ((armIn .notReady attached).sched 7).selection = none ∧ ((armIn .notReady attached).track 7).reloc = none) ∧
    (atFull 3 attached ∧ (attached.drive 7).arm = .idle ∧ (attached.sched 7).selection = none) := by
  simp only [atFull, atIdle, calm]
  decide +kernel

/-- Drive 7 fenced by WRITE-FAULT, a selected cause. -/
def fault7 : State :=
  fenced ⟨true, ⟨true, false, false, false⟩, false, false, some .writeInhibit, true⟩ (armIn .fenced attached)

theorem witness_FenceClear : (atIdle 3 served ∧ (served.auth.get 3).full = false) ∧
    (atIdle 3 attached ∧ (attached.auth.get 3).full = true ∧ 8 ≤ (8#8).toNat ∧ (attached.fence 7).flag = false) ∧
    (atIdle 3 fault7 ∧ (fault7.auth.get 3).full = true ∧ (fault7.fence 7).flag = true ∧
      (fault7.fence 7).causes.meets (fault7.policy 7).fenceSources = true) ∧
    (atIdle 3 fenced7 ∧ (fenced7.auth.get 3).full = true ∧ (fenced7.fence 7).flag = true ∧
      (fenced7.fence 7).causes.meets (fenced7.policy 7).fenceSources = false) := by
  simp only [atIdle, calm]
  decide +kernel

theorem witness_FencePurge : (atFull 3 attached ∧ (attached.fence 7).flag = false) ∧
    (atFull 3 (running (chain .ending) fenced7) ∧ ((running (chain .ending) fenced7).fence 7).flag = true ∧
      ∀ c x, (running (chain .ending) fenced7).ctx c = some x → x.drive = 7 →
        ¬(x.state = .queued ∨ x.state = .waitStore .flush)) ∧
    ∀ st, st = .queued ∨ st = .waitStore .flush → atFull 3 (sharing st fenced7) ∧
      ((sharing st fenced7).fence 7).flag = true ∧
      (sharing st fenced7).ctx 15 = some { chain st with buffer := some 5 } ∧
      pinnedByOther 15 { chain st with buffer := some 5 } (sharing st fenced7) ∧
      ∀ k y, (sharing st fenced7).ctx k = some y → y.drive = 7 →
        y.state = .queued ∨ y.state = .waitStore .flush → k = 15 := by
  refine ⟨?_, ?_, ?_⟩
  · simp only [atFull, atIdle, calm]
    decide +kernel
  · simp only [atFull, atIdle, calm, forallCtx]
    decide +kernel
  · rintro st (rfl | rfl) <;>
    · simp only [atFull, atIdle, calm, pinnedByOther_iff, forallCtx]
      decide +kernel

theorem witness_ForceRelease : (atFull 3 (reserved (some 0) [1, 2] attached) ∧
      ((reserved (some 0) [1, 2] attached).resv.get 7).holder = some 0) ∧
    atFull 3 attached ∧ (attached.resv.get 7).holder ≠ some 0 := by
  simp only [atFull, atIdle, calm]
  decide +kernel

/-- Buffer 5 of drive 7, last written by CL0. -/
def written5 (cells : List (SectorNo × Cell)) (g : Destage) : State :=
  (filled cells g attached).modBuffer 5 fun r => { r with lastWriter := some 0 }

theorem witness_BufferDiscardParityForce :
    (atFull 3 (written5 [] .running) ∧ ((written5 [] .running).buffer 5).state = .destaging) ∧
    (atFull 3 moving7 ∧ pinned (moving7.modBuffer 5 fun r => { r with relocPin := true }) 5 = true) ∧
    (atFull 3 attached ∧ pinned attached 5 = false ∧ (attached.buffer 5).state = .empty) ∧
    (atFull 3 (written5 [] .none) ∧ pinned (written5 [] .none) 5 = false ∧
      ((written5 [] .none).buffer 5).assigned = some (7, ⟨599, 9⟩) ∧ ((written5 [] .none).buffer 5).dirty = [] ∧
      noFlush 7 (written5 [] .none)) ∧
    (atFull 3 (written5 [(15, ⟨[2#8], true, false⟩)] .none) ∧ pinned (written5 [(15, ⟨[2#8], true, false⟩)] .none) 5 = false ∧
      ((written5 [(15, ⟨[2#8], true, false⟩)] .none).buffer 5).assigned = some (7, ⟨599, 9⟩) ∧
      ((written5 [(15, ⟨[2#8], true, false⟩)] .none).buffer 5).dirty ≠ [] ∧
      noFlush 7 (written5 [(15, ⟨[2#8], true, false⟩)] .none)) := by
  simp only [atFull, atIdle, calm, noFlush, forallCtx]
  decide +kernel

/-- Buffer 5 with one dirty sector. -/
def dirty5 (g : Destage) : State := written5 [(15, ⟨[2#8], true, false⟩)] g

/-- The other buffers in use, and context 15 waits for one. -/
def short : State :=
  { running (chain (.waitStore .bufferList)) (dirty5 .none) with
    bufWait := [⟨.context 15, 7, ⟨0, 0⟩⟩]
    buffers := Vector.ofFn fun b =>
      if b.val < 5 then { Buffer.powerOn with assigned := some (0, ⟨⟨b.val, by omega⟩, 0⟩) } else (dirty5 .none).buffer b }

/-- Context 15 in the flush wait of drive 7, buffer 5 the only DIRTY one, its destage QUEUED. -/
def flushing : State :=
  (running (chain (.waitStore .flush)) (dirty5 .queued)).modSched 7 fun q =>
    { q with queue := [⟨.destage 5, ⟨599, 9⟩, 0, 0⟩] }

theorem witness_BufferDiscard_waiter : atFull 3 short ∧ pinned short 5 = false ∧
    (short.buffer 5).assigned = some (7, ⟨599, 9⟩) ∧ (short.buffer 5).dirty ≠ [] ∧ (short.buffer 5).destage = .none ∧
    noFlush 7 short ∧ short.bufWait = [⟨.context 15, 7, ⟨0, 0⟩⟩] ∧
    short.ctx 15 = some (chain (.waitStore .bufferList)) ∧ (∀ n, (short.buffer n).assigned ≠ some (7, ⟨0, 0⟩)) ∧
    ∀ n, n < 5 → (short.buffer n).assigned ≠ none := by
  simp only [atFull, atIdle, calm, noFlush, forallCtx]
  decide +kernel

theorem witness_BufferDiscard_flush : atFull 3 flushing ∧ pinned flushing 5 = false ∧
    (flushing.buffer 5).assigned = some (7, ⟨599, 9⟩) ∧ (flushing.buffer 5).dirty ≠ [] ∧
    (flushing.buffer 5).destage = .queued ∧ flushing.bufWait = [] ∧
    flushing.ctx 15 = some (chain (.waitStore .flush)) ∧
    (∀ k y, flushing.ctx k = some y → y.drive = 7 → y.state = .waitStore .flush → k = 15) ∧
    ∀ n, n ≠ 5 → (flushing.buffer n).ofDrive 7 = true →
      (flushing.buffer n).state ≠ .dirty ∧ (flushing.buffer n).state ≠ .destaging := by
  simp only [atFull, atIdle, calm, forallCtx]
  decide +kernel

/-- A quiet string with much to clear. -/
def resetting : State :=
  { (running (chain .ending) (reserved (some 0) [1] (holding [⟨2, .driveReady 0, false⟩] attached))) with
    drives := Vector.replicate 8 Drive.powerOn, ctxWait := [2]
    suspects := [⟨7, ⟨0, 0⟩, 15, .placed, true, false⟩] }.modPort 0 fun p => { p with state := .down }

theorem witness_ControllerResetQuiet : atFull 3 resetting ∧
    (∀ d, (resetting.drive d).arm = .notReady ∧ (resetting.sched d).selection = none ∧
      (resetting.sched d).queue = [] ∧ (resetting.track d).reloc = none) ∧
    (∀ b, (resetting.buffer b).assigned = none) ∧ resetting.path = ⟨none, none⟩ := by
  simp only [atFull, atIdle, calm]
  decide +kernel

/-- Drive 7 awaiting its RECALIBRATE, or the INDEX after it. -/
def recalibrating (cyl : Option (Fin 604)) (why : RecalReason) : State :=
  served.modDrive 7 fun r => { r with arm := .recalibrating, cyl := cyl, recalReason := some why }

theorem witness_DriveComesReady_Ready : (calm State.reset ∧ (State.reset.drive 7).arm = .notReady ∧
      (State.reset.drive 7).lateAnswer = false) ∧
    (calm served ∧ (served.drive 7).arm ≠ .notReady) ∧
    ((State.reset.modDrive 7 fun r => { r with lateAnswer := true }).drive 7).lateAnswer = true := by
  simp only [calm]
  decide +kernel

theorem witness_DriveLost : (calm State.reset ∧ (State.reset.drive 7).arm = .notReady) ∧
    (calm served ∧ (served.drive 7).arm ≠ .notReady ∧ bare 7 served ∧
      ¬((served.drive 7).arm = .recalibrating ∧ (served.drive 7).cyl = none)) ∧
    (calm (recalibrating none .release) ∧ ((recalibrating none .release).drive 7).arm = .recalibrating ∧
      ((recalibrating none .release).drive 7).cyl = none ∧ bare 7 (recalibrating none .release)) := by
  simp only [calm, bare, forallCtx]
  decide +kernel

theorem witness_DriveComesReady_Done : (calm (recalibrating none .seekCheck) ∧
      ((recalibrating none .seekCheck).drive 7).arm = .recalibrating ∧ ((recalibrating none .seekCheck).drive 7).cyl = none) ∧
    (((recalibrating (some 0) .comingReady).drive 7).cyl = some 0 ∧
      ((recalibrating (some 0) .comingReady).fence 7).flag = false ∧
      ((recalibrating (some 0) .comingReady).fence 7).releasePending = false ∧
      noWork 7 (recalibrating (some 0) .comingReady) ∧
      ((recalibrating (some 0) .comingReady).drive 7).recalReason = some .comingReady) ∧
    (noWork 7 (recalibrating (some 0) .seekCheck) ∧
      ((recalibrating (some 0) .seekCheck).drive 7).recalReason ≠ some .comingReady) := by
  simp only [calm, noWork]
  decide +kernel

/-- Drive 7 at a rotational position. -/
def turning (seen : Bool) (p : Option SectorNo) (s : State) : State :=
  s.modDrive 7 fun r => { r with indexSeen := seen, position := p }

theorem witness_RotationalPosition : calm served ∧ (served.drive 7).arm = .idle ∧
    ((armIn .seeking served).drive 7).arm = .seeking ∧ (served.drive 7).indexSeen = false ∧
    ((turning true none served).drive 7).position = none ∧
    ((turning true (some 0) served).drive 7).position = some 0 ∧
    ((turning true (some 14) served).drive 7).position = some 14 ∧
    ((turning true (some 15) served).drive 7).position = some 15 ∧
    (State.reset.drive 7).arm = .notReady ∧ (State.reset.drive 7).ready = false := by
  refine ⟨⟨rfl, rfl⟩, ?_⟩
  decide +kernel

/-- Drive 7 with a seek to cylinder 603 in flight. -/
def seeking (a : ArmState) (k : Option Selection) (s : State) : State :=
  (s.modDrive 7 fun r => { r with arm := a, seekTarget := some 603 }).modSched 7 fun q => { q with selection := k }

/-- A selection of context 15's step. -/
def stepSel (detached : Bool) : Selection := ⟨.step 15, ⟨603, 9⟩, false, 0, detached, ⟨599, 9⟩, 0, 0⟩

theorem witness_SeekOutcome : (calm served ∧ (served.drive 7).seekTarget = none) ∧
    (calm (seeking .fenced none served) ∧ ((seeking .fenced none served).drive 7).seekTarget = some 603 ∧
      ((seeking .fenced none served).drive 7).arm = .fenced) ∧
    (calm (seeking .seeking (some (stepSel true)) served) ∧
      ((seeking .seeking (some (stepSel true)) served).drive 7).arm = .seeking ∧
      ((seeking .seeking (some (stepSel true)) served).sched 7).selection = some (stepSel true) ∧
      noWork 7 (seeking .seeking (some (stepSel true)) served)) ∧
    (calm (seeking .seeking (some (stepSel false)) (sharing .active served)) ∧
      ((seeking .seeking (some (stepSel false)) (sharing .active served)).drive 7).arm = .seeking ∧
      ((seeking .seeking (some (stepSel false)) (sharing .active served)).drive 7).seekTarget = some 603 ∧
      ((seeking .seeking (some (stepSel false)) (sharing .active served)).sched 7).selection = some (stepSel false) ∧
      (seeking .seeking (some (stepSel false)) (sharing .active served)).ctx 15 =
        some { chain .active with buffer := some 5 } ∧
      pinnedByOther 15 { chain .active with buffer := some 5 }
        (seeking .seeking (some (stepSel false)) (sharing .active served))) := by
  simp only [calm, noWork, pinnedByOther_iff]
  decide +kernel

/-- A selection that settles. -/
def settleSel (n : Nat) : Selection := ⟨.step 15, ⟨603, 9⟩, true, n, false, ⟨599, 9⟩, 0, 0⟩

/-- Drive 7 settling. -/
def settling (n : Nat) : State :=
  (armIn .settling (running (chain .active) served)).modSched 7 fun q => { q with selection := some (settleSel n) }

theorem witness_SettleEnds : (calm (settling 15) ∧ ((settling 15).drive 7).arm = .settling ∧
      ((settling 15).sched 7).selection = some (settleSel 15) ∧ 1 < (settleSel 2).settle) ∧
    (((settling 1).sched 7).selection = some (settleSel 1) ∧ (settleSel 1).settle ≤ 1 ∧
      ((settling 1).drive 7).cyl ≠ some (settleSel 1).phys.cyl) :=
  ⟨⟨⟨rfl, rfl⟩, by decide +kernel⟩, by decide +kernel⟩

/-- A request of context 15 for sector 15. -/
def wanting (dir : Transfer) (miss : Nat) : Orient := ⟨.step 15, dir, 5, ⟨599, 9⟩, 15, 15, [15], 0, miss⟩

/-- Drive 7 orienting at sector 14, with the path as given. -/
def orienting (o : Orient) (p : Path) : State :=
  { (turning true (some 14) (armIn .orienting
      (running (chain .active) (filled [(15, ⟨[2#8], true, false⟩)] .none served)))).setOrient 7 (some o) with
    path := p }.modSched 7 fun q => { q with selection := some (stepSel false) }

/-- A pass of drive 0. -/
def otherPass : Pass := ⟨0, .destage 0, .write, 0, ⟨0, 0⟩, 0, 0, 1, 0, 0, [], [], [], false⟩

theorem witness_ClaimDecided :
    (calm (orienting (wanting .read 0) ⟨none, some ⟨7, .step 15⟩⟩) ∧
      ((orienting (wanting .read 0) ⟨none, none⟩).drive 7).arm = .orienting ∧
      (orienting (wanting .read 0) ⟨none, none⟩).orients.get 7 = some (wanting .read 0) ∧
      ((orienting (wanting .read 0) ⟨none, none⟩).sched 7).selection = some (stepSel false) ∧
      (wanting .read 0).first = 15 ∧
      (advancePosition ((orienting (wanting .read 0) ⟨none, none⟩).drive 7)).position = some 15) ∧
    (((orienting (wanting .write 0) ⟨none, none⟩).fence 7).causes.writeFault = false ∧
      ((orienting (wanting .write 0) ⟨none, none⟩).buffer 5).assigned = some (7, (wanting .write 0).home) ∧
      ((orienting (wanting .write 0) ⟨none, none⟩).buffer 5).cell 15 = some ⟨[2#8], true, false⟩) ∧
    (orienting (wanting .read 1) ⟨some otherPass, none⟩).path.grant ≠ none ∧
    1 + 1 < ((orienting (wanting .read 1) ⟨some otherPass, none⟩).policy 7).missLimit ∧
    (orienting (wanting .read 15) ⟨none, some ⟨0, .destage 0⟩⟩).path.booking ≠ none ∧
    ((orienting (wanting .read 2) ⟨some otherPass, none⟩).policy 7).missLimit ≤ 2 + 1 := by
  refine ⟨⟨⟨rfl, rfl⟩, ?_⟩, ?_⟩ <;> decide +kernel

/-- A pass of drive 7 over sectors 14 and 15. -/
def passing (w : Work) (dir : Transfer) (taken : Nat) : Pass :=
  ⟨7, w, dir, 5, ⟨599, 9⟩, 14, 15, taken + 1, taken, taken, [], [], [], false⟩

/-- Drive 7 transferring. -/
def transferring (p : Pass) (cells : List (SectorNo × Cell)) (g : Destage) : State :=
  { (armIn .transferring (running { chain .active with buffer := some 5 } (filled cells g served))).setOrient 7
      (some ⟨p.work, p.dir, 5, ⟨599, 9⟩, 14, 15, [14, 15], 0, 0⟩) with path := ⟨some p, none⟩ }.modTracks 7 fun t =>
    { t with entries := [⟨⟨599, 9⟩, 39, [0, 14]⟩] }

/-- Two dirty sectors. -/
def dirty2 : List (SectorNo × Cell) := [(14, ⟨[1#8], true, false⟩), (15, ⟨[2#8], true, false⟩)]

theorem witness_SectorResultTaken :
    (calm (transferring (passing (.step 15) .read 0) [] .none) ∧
      ((transferring (passing (.step 15) .read 0) [] .none).drive 7).arm = .transferring ∧
      (passing (.step 15) .read 0).taken + 1 < (passing (.step 15) .read 0).length ∧
      ((transferring (passing (.step 15) .read 0) [] .none).buffer 5).assigned = some (7, ⟨599, 9⟩) ∧
      (14 : SectorNo) ∈ ([14, 15] : List SectorNo) ∧
      ((transferring (passing (.step 15) .read 0) [] .none).buffer 5).holdsDirty 14 = false ∧
      ((transferring (passing (.step 15) .read 0) [] .none).fence 7).causes.offTrack = false) ∧
    (calm (transferring (passing (.destage 5) .write 0) dirty2 .running) ∧
      ((transferring (passing (.destage 5) .write 0) dirty2 .running).buffer 5).destage = .running ∧
      (14 : SectorNo) ∉ (passing (.destage 5) .write 0).withheld) ∧
    (13 : SectorNo).val < (passing (.destage 5) .write 0).first.val + (passing (.destage 5) .write 0).closed ∧
    (passing (.destage 5) .write 0).fits .uncorrectable = false := by
  simp only [calm]
  decide +kernel

theorem witness_PassEndRetries :
    (calm served ∧ endsPass served 7 .sectorEvent = false ∧
      endsPass (transferring (passing (.step 15) .read 0) [] .none) 7 (.result 14 .uncorrectable) = false) ∧
    (calm (transferring (passing (.step 15) .read 1) [] .none) ∧
      (passing (.step 15) .read 1).taken + 1 = (passing (.step 15) .read 1).length ∧
      (passing (.step 15) .read 1).sector 1 = 15 ∧
      ((transferring (passing (.step 15) .read 1) [] .none).buffer 5).dirty = [] ∧
      2 < ((transferring (passing (.step 15) .read 1) [] .none).policy 7).retryLimit) := by
  simp only [calm]
  decide +kernel

/-- The last sector of a destage of buffer 5, sector 14 written before. -/
def lastOut (retain : Bool) : State :=
  ((transferring (passing (.destage 5) .write 1) [(14, ⟨[1#8], false, false⟩), (15, ⟨[2#8], true, false⟩)] .running).setCtx
    15 none).modDrive 7 (fun r => { r with policy := { r.policy with retain := retain } }) |>.modBuffer 5 fun r =>
    { r with runs := [(14, 15)] }

theorem witness_DestageEnds (retain : Bool) : calm (lastOut retain) ∧
    ((lastOut retain).drive 7).arm = .transferring ∧ (lastOut retain).path.grant = some (passing (.destage 5) .write 1) ∧
    (passing (.destage 5) .write 1).taken + 1 = (passing (.destage 5) .write 1).length ∧
    (passing (.destage 5) .write 1).sector 1 = 15 ∧
    ((lastOut retain).buffer 5).assigned = some (7, (passing (.destage 5) .write 1).home) ∧
    ((lastOut retain).buffer 5).destage = .running ∧ ((lastOut retain).buffer 5).dirty = [15] ∧
    (∀ r ∈ ((lastOut retain).buffer 5).runs, r.1 ≤ (passing (.destage 5) .write 1).last) ∧
    pinned (lastOut retain) 5 = false ∧ ((lastOut retain).drive 7).cyl ≠ none ∧ noWork 7 (lastOut retain) ∧
    (lastOut retain).bufWait = [] ∧ noFlush 7 (lastOut retain) ∧ ((lastOut retain).policy 7).retain = retain := by
  cases retain <;>
  · simp only [calm, noWork, noFlush, forallCtx]
    decide +kernel

/-- A relocation to spare 0, from the track's own place or from spare 39. -/
def movingTo (phase : RelocPhase) (old : PhysTrack) : Relocation := ⟨⟨599, 9⟩, old, some 0, phase, some 5, [3], false⟩

/-- Drive 7 at cylinder 600, in the last sector of a relocation's pass. -/
def relocating (phase : RelocPhase) (dir : Transfer) (old : PhysTrack) : State :=
  ((transferring (passing (.relocation phase) dir 1) [(14, ⟨[1#8], false, false⟩)] .none).modTracks 7 fun t =>
    { t with reloc := some (movingTo phase old), pool := put t.pool 0 .allocated }).modDrive 7
    (fun r => { r with cyl := some 600 }) |>.modBuffer 5 fun r => { r with relocPin := true }

theorem witness_RelocationPasses (old : PhysTrack) :
    (calm (relocating .writeNew .write old) ∧ ((relocating .writeNew .write old).drive 7).arm = .transferring ∧
      ((relocating .writeNew .write old).buffer 5).assigned = some (7, ⟨599, 9⟩) ∧
      ((relocating .writeNew .write old).track 7).reloc = some (movingTo .writeNew old) ∧
      ((relocating .writeNew .write old).drive 7).cyl = some (sparePhys 0).cyl ∧
      ((relocating .writeNew .write old).sched 7).queue = [] ∧
      ((relocating .writeNew .write old).drive 7).pending = none) ∧
    (calm (relocating .verify .read old) ∧ (passing (.relocation .verify) .read 1).noted = [] ∧
      (∃ o, (relocating .verify .read old).orients.get 7 = some o ∧ 15 ∈ o.needed) ∧
      ((relocating .verify .read old).fence 7).causes.offTrack = false ∧
      ((relocating .verify .read old).buffer 5).dirty = [] ∧
      ∃ y, (relocating .verify .read old).ctx 15 = some y ∧ y.buffer = some 5 ∧ y.state ≠ .waitStore .bufferFree) :=
  ⟨⟨⟨rfl, rfl⟩, rfl, rfl, rfl, rfl, rfl, rfl⟩, ⟨rfl, rfl⟩, rfl, ⟨_, rfl, by decide⟩, rfl, rfl, _, rfl, rfl, by decide⟩

/-- READ_OLD in its last sector, the only one still needed. -/
def readingOld : State :=
  (relocating .readOld .read ⟨599, 9⟩).modTracks 7 (fun t =>
    { t with reloc := some { movingTo .readOld ⟨599, 9⟩ with newSpare := none }, pool := put t.pool 0 .retired }) |>.setOrient 7
    (some ⟨.relocation .readOld, .read, 5, ⟨599, 9⟩, 14, 15, [15], 0, 0⟩)

theorem witness_SparesTaken (old : PhysTrack) :
    (calm readingOld ∧ (readingOld.drive 7).arm = .transferring ∧
      (readingOld.track 7).reloc = some { movingTo .readOld ⟨599, 9⟩ with newSpare := none } ∧
      (∃ o, readingOld.orients.get 7 = some o ∧ o.needed = [15]) ∧ (readingOld.buffer 5).dirty = [] ∧
      freeSpare (readingOld.track 7) = some 1) ∧
    freeSpare { (relocating .verify .read old).track 7 with
      pool := put ((relocating .verify .read old).track 7).pool 0 .retired } = some 1 :=
  ⟨⟨⟨rfl, rfl⟩, rfl, rfl, ⟨_, rfl, rfl⟩, rfl, by decide +kernel⟩, by
    have h : ((relocating .verify .read old).track 7).pool = ((relocating .verify .read ⟨599, 9⟩).track 7).pool := rfl
    simp only [freeSpare, h]
    decide +kernel⟩

theorem witness_ConditionsKept :
    (calm fenced7 ∧ (fenced7.fence 7).causes.has .offTrack = true ∧ (fenced7.fence 7).causes.has .powerCheck = false ∧
      (fenced7.fence 7).flag = true) ∧
    (calm served ∧ (served.fence 7).causes.has .speedLow = false ∧
      ((served.fence 7).causes.with .speedLow true).meets (served.policy 7).fenceSources = false ∧
      (served.fence 7).forced = false ∧ (served.drive 7).arm ≠ .transferring) ∧
    (calm (fault7.modDrive 7 fun r => { r with policy := { r.policy with autoRelease := true } }) ∧
      ((fault7.modDrive 7 fun r => { r with policy := { r.policy with autoRelease := true } }).policy 7).autoRelease =
        true ∧ (fault7.fence 7).causes.has .writeFault = true) ∧
    ((served.policy 7).fenceSources.has .powerCheck = true ∧ (served.fence 7).causes.has .powerCheck = false ∧
      (served.fence 7).releasePending = false ∧ (served.drive 7).arm = .idle ∧ (served.sched 7).selection = none ∧
      (served.track 7).reloc = none) := by
  simp only [calm]
  decide +kernel

theorem witness_FenceReleased : calm releasing ∧ (releasing.drive 7).arm = .fenced ∧
    (releasing.fence 7).flag = false ∧ (releasing.fence 7).releasePending = true ∧
    (releasing.fence 7).commanded = some .writeInhibit ∧ (releasing.drive 7).seekTarget = none ∧
    (releasing.drive 7).cyl = some 100 ∧ noWork 7 releasing ∧ releasing.bufWait = [] := by
  simp only [calm, noWork]
  decide +kernel

/-- A queue of four chains of drive 7, in rank order. -/
def waiting (passes : Nat) : State :=
  served.modSched 7 fun q => { q with queue :=
    [⟨.step 0, ⟨99, 0⟩, 0, 0⟩, ⟨.step 1, ⟨101, 0⟩, 1, passes⟩, ⟨.step 2, ⟨101, 9⟩, 2, passes⟩, ⟨.step 3, ⟨599, 0⟩, 3, 0⟩] }

theorem witness_SelectionOrder :
    relocItem moving7 7 = some ⟨.relocation .readOld, ⟨599, 9⟩, 0, 0⟩ ∧
    (relocItem (waiting 0) 7 = none ∧
      (((waiting 0).sched 7).queue.filter (eligible (waiting 0) 7)).Pairwise (fun a b => a.rank < b.rank) ∧
      nextItem (waiting 0) 7 100 = some ⟨.step 1, ⟨101, 0⟩, 1, 0⟩ ∧
      nextItem (waiting 0) 7 99 = some ⟨.step 0, ⟨99, 0⟩, 0, 0⟩ ∧
      nextItem (waiting 8) 7 99 = some ⟨.step 1, ⟨101, 0⟩, 1, 8⟩ ∧
      nextItem (waiting 0) 7 603 = some ⟨.step 3, ⟨599, 0⟩, 3, 0⟩) := by decide +kernel

theorem witness_TranslationByMap :
    ((mapped none).track 7).entries = [] ++ ⟨⟨599, 9⟩, 39, [15]⟩ :: [] ∧
    ∀ e ∈ ((mapped none).track 7).entries, e.home ≠ ⟨0, 0⟩ := by decide +kernel

/-- Two items of one level on CL3. -/
def equals3 : State := holding [⟨2, .driveReady 0, false⟩, ⟨4, .driveReady 1, false⟩] served

theorem witness_RaisingAndChoice :
    ((linkIn .down served).port 3).state = .down ∧
    ((served.port 3).state = .idle ∧ (served.present.get 3).items.length < 64 ∧
      ∀ i ∈ (served.present.get 3).items, ¬(served.port 3).floor < levelOf served 3 i.body.kind) ∧
    (∃ i ∈ (merging.present.get 3).items,
      onOffer merging 3 i = false ∧ i.body.same (.bufferDataLost 7 ⟨599, 9⟩ [0]) = true) ∧
    (offering3.port 3).state ≠ .idle ∧
    ((⟨2, .driveReady 0, false⟩ : Item) ∈ (equals3.present.get 3).items ∧ (equals3.port 3).state = .idle ∧
      (equals3.port 3).floor < levelOf equals3 3 .driveReady ∧
      (∀ j ∈ (equals3.present.get 3).items,
        levelOf equals3 3 j.body.kind ≤ levelOf equals3 3 .driveReady ∧ 2 ≤ j.age) ∧
      (equals3.present.get 3).items.Pairwise fun a b => a.age < b.age) := by decide +kernel

theorem witness_TrackReported : (State.reset.track 7).map ≠ .loaded ∧
    ((suspected none).track 7).map = .loaded ∧
    (∃ e ∈ (suspected none).suspects, e.drive = 7 ∧ e.home = ⟨0, 0⟩ ∧ e.count = 15) ∧
    (¬∃ e ∈ (suspected none).suspects, e.drive = 7 ∧ e.home = ⟨1, 0⟩) ∧ (suspected none).suspects.length < 16 ∧
    ((suspects16.track 7).map = .loaded ∧ (¬∃ e ∈ suspects16.suspects, e.drive = 7 ∧ e.home = ⟨599, 9⟩) ∧
      16 ≤ suspects16.suspects.length) := by decide +kernel

end Sys2Proof.Tests
end

section
namespace Sys2Proof.Machine.DriveString
open Sys2Proof.Machine.Laws

/-! SUPPORT. What has been sent stands (log 4): for every operation one equation, whose right side is what had been sent
before with what the operation adds. The equations form a simp set, so that the equation of an operation follows from
those of the operations it calls, branch by branch. -/

/-- What an operation adds to what has been sent (log 4). -/
def added (f : State → State) (s : State) : List Output := (f s).sent.drop s.sent.length

/-- An operation that only adds to what has been sent, as an equation that simp rewrites with. -/
theorem adds {f : State → State} {s : State} (h : s.sent <+: (f s).sent) : (f s).sent = s.sent ++ added f s := by
  obtain ⟨more, hm⟩ := h
  simp [added, ← hm]

@[simp] theorem sent_each {α : Type} (xs : List α) (f : α → State → State) (s : State)
    (h : ∀ x t, t.sent <+: (f x t).sent) : (each xs f s).sent = s.sent ++ added (each xs f) s :=
  adds (each_keeps (P := fun t => s.sent <+: t.sent) (fun x t ht => ht.trans (h x t)) xs s List.prefix_rfl)

@[simp] theorem sent_ahead (ts : List Task) (f : State → State) (s : State) (h : ∀ t, t.sent <+: (f t).sent) :
    (State.ahead ts f s).sent = s.sent ++ added (State.ahead ts f) s :=
  adds (h { s with work := [] })

/-! Presentation (chapter 3). -/

@[simp] theorem sent_choose (l : LinkNo) (s : State) : (choose l s).sent = s.sent ++ added (choose l) s :=
  adds (by unfold choose; (repeat' split) <;> simp)

@[simp] theorem sent_goIdle (l : LinkNo) (s : State) : (goIdle l s).sent = s.sent ++ added (goIdle l) s :=
  adds (by simp [goIdle])

@[simp] theorem sent_setFloor (l : LinkNo) (f : Fin 16) (s : State) : (setFloor l f s).sent = s.sent := rfl

@[simp] theorem sent_setItems (l : LinkNo) (xs : List Item) (s : State) : (setItems l xs s).sent = s.sent := rfl

@[simp] theorem sent_joinSet (l : LinkNo) (b : ItemBody) (s : State) : (joinSet l b s).sent = s.sent := rfl

@[simp] theorem sent_raise (l : LinkNo) (b : ItemBody) (s : State) :
    (raise l b s).sent = s.sent ++ added (raise l b) s :=
  adds (by unfold raise; dsimp only; (repeat' split) <;> simp)

@[simp] theorem sent_raiseOn (ls : List LinkNo) (b : ItemBody) (s : State) :
    (raiseOn ls b s).sent = s.sent ++ added (raiseOn ls b) s :=
  adds (by simp [raiseOn])

@[simp] theorem sent_raiseDrive (d : DriveNo) (b : ItemBody) (s : State) :
    (raiseDrive d b s).sent = s.sent ++ added (raiseDrive d b) s :=
  adds (by simp [raiseDrive])

@[simp] theorem sent_withdraw (l : LinkNo) (b : ItemBody) (s : State) :
    (withdraw l b s).sent = s.sent ++ added (withdraw l b) s :=
  adds (by unfold withdraw; (repeat' split) <;> simp)

@[simp] theorem sent_endLevelOn (b : ItemBody) (l : LinkNo) (s : State) : (endLevelOn b l s).sent = s.sent := rfl

@[simp] theorem sent_endLevel (b : ItemBody) (s : State) : (endLevel b s).sent = s.sent := rfl

@[simp] theorem sent_returnItem (l : LinkNo) (i : Item) (s : State) :
    (returnItem l i s).sent = s.sent ++ added (returnItem l i) s :=
  adds (by unfold returnItem; dsimp only; (repeat' split) <;> simp)

@[simp] theorem sent_putOff (l : LinkNo) (s : State) : (putOff l s).sent = s.sent ++ added (putOff l) s :=
  adds (by unfold putOff; split <;> simp)

@[simp] theorem sent_clearSet (l : LinkNo) (s : State) : (clearSet l s).sent = s.sent := rfl

@[simp] theorem sent_controllerFree (s : State) : (controllerFree s).sent = s.sent ++ added controllerFree s :=
  adds (by simp [controllerFree])

@[simp] theorem sent_freeCtx (c : CtxNo) (s : State) : (freeCtx c s).sent = s.sent ++ added (freeCtx c) s :=
  adds (by simp [freeCtx])

@[simp] theorem sent_dataLost (b : BufNo) (xs : List SectorNo) (s : State) :
    (dataLost b xs s).sent = s.sent ++ added (dataLost b xs) s :=
  adds (by unfold dataLost; split <;> simp)

/-! Reservations (chapter 4). -/

@[simp] theorem sent_handOff (d : DriveNo) (s : State) : (handOff d s).sent = s.sent ++ added (handOff d) s :=
  adds (by unfold handOff; split <;> simp)

@[simp] theorem sent_clearHolder (d : DriveNo) (s : State) :
    (clearHolder d s).sent = s.sent ++ added (clearHolder d) s :=
  adds (by simp [clearHolder])

@[simp] theorem sent_leaveWait (l : LinkNo) (d : DriveNo) (s : State) : (leaveWait l d s).sent = s.sent := rfl

@[simp] theorem sent_reserve (l : LinkNo) (d : DriveNo) (wait : Bool) (s : State) :
    (reserve l d wait s).sent = s.sent := by
  unfold reserve
  (repeat' split) <;> rfl

@[simp] theorem sent_release (l : LinkNo) (d : DriveNo) (s : State) :
    (release l d s).sent = s.sent ++ added (release l d) s :=
  adds (by unfold release; (repeat' split) <;> simp)

@[simp] theorem sent_takeAway (l : LinkNo) (d : DriveNo) (s : State) :
    (takeAway l d s).sent = s.sent ++ added (takeAway l d) s :=
  adds (by simp [takeAway])

@[simp] theorem sent_losePath (l : LinkNo) (d : DriveNo) (s : State) :
    (losePath l d s).sent = s.sent ++ added (losePath l d) s :=
  adds (by unfold losePath; split <;> simp)

@[simp] theorem sent_loseReservation (l : LinkNo) (d : DriveNo) (s : State) :
    (loseReservation l d s).sent = s.sent ++ added (loseReservation l d) s :=
  adds (by unfold loseReservation; split <;> simp)

@[simp] theorem sent_loseReservations (l : LinkNo) (s : State) :
    (loseReservations l s).sent = s.sent ++ added (loseReservations l) s :=
  adds (by simp [loseReservations])

/-! The Buffer Store (chapter 7). -/

@[simp] theorem sent_joinQueue (d : DriveNo) (w : Work) (home : HomeTrack) (s : State) :
    (joinQueue d w home s).sent = s.sent := by
  unfold joinQueue
  split <;> rfl

@[simp] theorem sent_leaveQueue (d : DriveNo) (w : Work) (s : State) : (leaveQueue d w s).sent = s.sent := rfl

@[simp] theorem sent_giveItem (b : BufNo) (s : State) : (giveItem b s).sent = s.sent := by
  unfold giveItem
  (repeat' split) <;> simp

@[simp] theorem sent_joinTogether (bs : List BufNo) (s : State) :
    (joinTogether bs s).sent = s.sent ++ added (joinTogether bs) s :=
  adds (by simp [joinTogether])

@[simp] theorem sent_joinInTurn (bs : List BufNo) (s : State) :
    (joinInTurn bs s).sent = s.sent ++ added (joinInTurn bs) s :=
  sent_each _ _ s fun b t => by split <;> simp

@[simp] theorem sent_flushItems (d : DriveNo) (s : State) : (flushItems d s).sent = s.sent ++ added (flushItems d) s :=
  adds (by simp [flushItems])

@[simp] theorem sent_throughItems (join : List BufNo → State → State) (d : DriveNo) (s : State)
    (h : ∀ bs t, t.sent <+: (join bs t).sent) :
    (throughItems join d s).sent = s.sent ++ added (throughItems join d) s :=
  adds (h _ s)

@[simp] theorem sent_reclaim (s : State) : (reclaim s).sent = s.sent := by
  unfold reclaim
  (repeat' split) <;> simp

@[simp] theorem sent_unlist (gone : Waiter → Bool) (s : State) : (unlist gone s).sent = s.sent := rfl

@[simp] theorem sent_reclaimCheck (s : State) : (reclaimCheck s).sent = s.sent := by
  unfold reclaimCheck
  (repeat' split) <;> simp

@[simp] theorem sent_touch (b : BufNo) (s : State) : (touch b s).sent = s.sent := rfl

@[simp] theorem sent_emptyBuffer (b : BufNo) (s : State) : (emptyBuffer b s).sent = s.sent := rfl

@[simp] theorem sent_suspendCtx (c : CtxNo) (s : State) : (suspendCtx c s).sent = s.sent ++ added (suspendCtx c) s :=
  adds (by unfold suspendCtx; (repeat' split) <;> simp)

@[simp] theorem sent_suspendStaging (b : BufNo) (s : State) :
    (suspendStaging b s).sent = s.sent ++ added (suspendStaging b) s :=
  adds (by simp [suspendStaging])

@[simp] theorem sent_stage (c : CtxNo) (s : State) : (stage c s).sent = s.sent ++ added (stage c) s :=
  adds (by unfold stage; (repeat' split) <;> simp)

@[simp] theorem sent_resumeStaging (b : BufNo) (s : State) :
    (resumeStaging b s).sent = s.sent ++ added (resumeStaging b) s :=
  adds (by unfold resumeStaging; split <;> simp)

@[simp] theorem sent_assign (who : Requester) (d : DriveNo) (b : BufNo) (s : State) :
    (assign who d b s).sent = s.sent ++ added (assign who d b) s :=
  adds (by unfold assign; split <;> simp)

theorem allocate_adds {w : Waiter} {s t : State} (h : allocate w s = some t) : s.sent <+: t.sent := by
  unfold allocate at h
  (repeat' split at h) <;> simp_all only [Option.some.injEq, reduceCtorEq] <;> subst h <;> simp

@[simp] theorem sent_request (w : Waiter) (s : State) : (request w s).sent = s.sent ++ added (request w) s :=
  adds (by
    unfold request
    split
    · next t ht => exact allocate_adds ht
    · simp)

@[simp] theorem sent_serveWaiter (w : Waiter) (s : State) :
    (serveWaiter w s).sent = s.sent ++ added (serveWaiter w) s :=
  adds (by
    unfold serveWaiter
    cases ht : allocate w s with
    | none => simp
    | some t => exact allocate_adds ht)

@[simp] theorem sent_serveTimes (n : Nat) (s : State) :
    (serveTimes n s).sent = s.sent ++ added (serveTimes n) s := by
  refine adds ?_
  induction n generalizing s with
  | zero => simp [serveTimes]
  | succ n ih =>
    unfold serveTimes
    split
    · simp
    · split
      · refine List.IsPrefix.trans ?_ (ih _)
        simp
      · simp

@[simp] theorem sent_serve (s : State) : (serve s).sent = s.sent ++ added serve s :=
  sent_serveTimes _ s

@[simp] theorem sent_flushTest (d : DriveNo) (s : State) : (flushTest d s).sent = s.sent ++ added (flushTest d) s :=
  adds (by unfold flushTest; split <;> simp)

@[simp] theorem sent_emptyOf (d : DriveNo) (b : BufNo) (s : State) :
    (emptyOf d b s).sent = s.sent ++ added (emptyOf d b) s :=
  adds (by simp [emptyOf])

@[simp] theorem sent_retainRule (b : BufNo) (s : State) : (retainRule b s).sent = s.sent ++ added (retainRule b) s :=
  adds (by unfold retainRule; (repeat' split) <;> simp)

@[simp] theorem sent_afterUnpin (b : BufNo) (s : State) : (afterUnpin b s).sent = s.sent ++ added (afterUnpin b) s :=
  adds (by unfold afterUnpin; dsimp only; (repeat' split) <;> simp)

@[simp] theorem sent_leftDirty (b : BufNo) (s : State) : (leftDirty b s).sent = s.sent ++ added (leftDirty b) s :=
  adds (by unfold leftDirty; dsimp only; (repeat' split) <;> simp)

@[simp] theorem sent_noteStored (b : BufNo) (x : SectorNo) (s : State) : (noteStored b x s).sent = s.sent := rfl

@[simp] theorem sent_storeCell (b : BufNo) (x : SectorNo) (data : List Byte) (dirty : Bool) (s : State) :
    (storeCell b x data dirty s).sent = s.sent := rfl

@[simp] theorem sent_storeFrame (l : LinkNo) (b : BufNo) (x : SectorNo) (data : List Byte) (s : State) :
    (storeFrame l b x data s).sent = s.sent ++ added (storeFrame l b x data) s :=
  adds (by unfold storeFrame; dsimp only; (repeat' split) <;> simp)

@[simp] theorem sent_cleanSector (b : BufNo) (x : SectorNo) (s : State) :
    (cleanSector b x s).sent = s.sent ++ added (cleanSector b x) s :=
  adds (by unfold cleanSector; dsimp only; (repeat' split) <;> simp)

@[simp] theorem sent_capture (k : Capture) (s : State) : (capture k s).sent = s.sent := by
  unfold capture
  split <;> rfl

@[simp] theorem sent_parityFailure (b : BufNo) (x : SectorNo) (toDrive : Bool) (by_ : CaptureBy) (s : State) :
    (parityFailure b x toDrive by_ s).sent = s.sent ++ added (parityFailure b x toDrive by_) s :=
  adds (by unfold parityFailure; dsimp only; (repeat' split) <;> simp)

@[simp] theorem sent_unpin (c : CtxNo) (s : State) : (unpin c s).sent = s.sent ++ added (unpin c) s :=
  adds (by unfold unpin; split <;> simp)

@[simp] theorem sent_clearRelocPin (b : BufNo) (s : State) :
    (clearRelocPin b s).sent = s.sent ++ added (clearRelocPin b) s :=
  adds (by simp [clearRelocPin])

@[simp] theorem sent_destageEnded (d : DriveNo) (b : BufNo) (s : State) :
    (destageEnded d b s).sent = s.sent ++ added (destageEnded d b) s :=
  adds (by unfold destageEnded; dsimp only; (repeat' split) <;> simp)

@[simp] theorem sent_destageStopped (b : BufNo) (s : State) :
    (destageStopped b s).sent = s.sent ++ added (destageStopped b) s :=
  adds (by unfold destageStopped; dsimp only; (repeat' split) <;> simp)

/-! Alternate and suspect tracks (chapters 8 and 9). -/

@[simp] theorem sent_evalSpares (d : DriveNo) (s : State) : (evalSpares d s).sent = s.sent ++ added (evalSpares d) s :=
  adds (by unfold evalSpares; dsimp only; (repeat' split) <;> simp)

@[simp] theorem sent_endSparesLow (d : DriveNo) (s : State) : (endSparesLow d s).sent = s.sent := by
  unfold endSparesLow
  split <;> rfl

@[simp] theorem sent_staleMapCursors (d : DriveNo) (s : State) : (staleMapCursors d s).sent = s.sent := rfl

@[simp] theorem sent_staleSuspectCursors (s : State) : (staleSuspectCursors s).sent = s.sent := rfl

@[simp] theorem sent_removeSuspects (gone : Suspect → Bool) (s : State) : (removeSuspects gone s).sent = s.sent := by
  unfold removeSuspects
  split <;> rfl

@[simp] theorem sent_modSuspect (d : DriveNo) (h : HomeTrack) (f : Suspect → Suspect) (s : State) :
    (modSuspect d h f s).sent = s.sent := rfl

@[simp] theorem sent_report (d : DriveNo) (h : HomeTrack) (s : State) :
    (report d h s).sent = s.sent ++ added (report d h) s :=
  adds (by unfold report; (repeat' split) <;> simp)

@[simp] theorem sent_threshold (d : DriveNo) (h : HomeTrack) (s : State) :
    (threshold d h s).sent = s.sent ++ added (threshold d h) s :=
  adds (by unfold threshold; (repeat' split) <;> simp)

@[simp] theorem sent_recordFree (d : DriveNo) (s : State) : (recordFree d s).sent = s.sent ++ added (recordFree d) s :=
  adds (by unfold recordFree; (repeat' split) <;> simp)

@[simp] theorem sent_relocOutcome (d : DriveNo) (h : HomeTrack) (o : RelocOutcome) (s : State) :
    (relocOutcome d h o s).sent = s.sent ++ added (relocOutcome d h o) s :=
  adds (by unfold relocOutcome; dsimp only; (repeat' split) <;> simp)

@[simp] theorem sent_setSpare (d : DriveNo) (i : SpareNo) (k : SpareState) (s : State) :
    (setSpare d i k s).sent = s.sent := rfl

@[simp] theorem sent_modReloc (d : DriveNo) (f : Relocation → Relocation) (s : State) :
    (modReloc d f s).sent = s.sent := rfl

@[simp] theorem sent_removeRecord (d : DriveNo) (r : Relocation) (s : State) :
    (removeRecord d r s).sent = s.sent ++ added (removeRecord d r) s :=
  adds (by unfold removeRecord; split <;> simp)

@[simp] theorem sent_createRelocation (d : DriveNo) (h : HomeTrack) (s : State) :
    (createRelocation d h s).sent = s.sent ++ added (createRelocation d h) s :=
  adds (by unfold createRelocation; dsimp only; (repeat' split) <;> simp)

@[simp] theorem sent_beginReadOld (d : DriveNo) (b : BufNo) (s : State) : (beginReadOld d b s).sent = s.sent := rfl

@[simp] theorem sent_beginAgain (d : DriveNo) (s : State) : (beginAgain d s).sent = s.sent := by
  unfold beginAgain
  (repeat' split) <;> rfl

@[simp] theorem sent_holdBuffer (d : DriveNo) (s : State) : (holdBuffer d s).sent = s.sent := by
  unfold holdBuffer
  (repeat' split) <;> rfl

@[simp] theorem sent_relocFailed (d : DriveNo) (r : Relocation) (s : State) :
    (relocFailed d r s).sent = s.sent ++ added (relocFailed d r) s :=
  adds (by simp [relocFailed])

@[simp] theorem sent_takeSpare (d : DriveNo) (s : State) : (takeSpare d s).sent = s.sent ++ added (takeSpare d) s :=
  adds (by unfold takeSpare; (repeat' split) <;> simp)

@[simp] theorem sent_readOldEnds (d : DriveNo) (left : List SectorNo) (s : State) :
    (readOldEnds d left s).sent = s.sent ++ added (readOldEnds d left) s :=
  adds (by simp [readOldEnds])

@[simp] theorem sent_spareFails (d : DriveNo) (s : State) : (spareFails d s).sent = s.sent ++ added (spareFails d) s :=
  adds (by unfold spareFails; (repeat' split) <;> simp)

@[simp] theorem sent_writeNewEnds (d : DriveNo) (s : State) : (writeNewEnds d s).sent = s.sent := rfl

@[simp] theorem sent_commit (d : DriveNo) (s : State) : (commit d s).sent = s.sent ++ added (commit d) s :=
  adds (by unfold commit; (repeat' split) <;> simp)

@[simp] theorem sent_abandon (d : DriveNo) (s : State) : (abandon d s).sent = s.sent ++ added (abandon d) s :=
  adds (by unfold abandon; (repeat' split) <;> simp)

@[simp] theorem sent_written (d : DriveNo) (h : HomeTrack) (x : SectorNo) (s : State) :
    (written d h x s).sent = s.sent := rfl

/-! The arm (chapters 1 and 5). -/

@[simp] theorem sent_startRecal (d : DriveNo) (why : RecalReason) (s : State) :
    (startRecal d why s).sent = s.sent ++ added (startRecal d why) s :=
  adds (by simp [startRecal])

@[simp] theorem sent_cancelBooking (d : DriveNo) (s : State) : (cancelBooking d s).sent = s.sent := rfl

@[simp] theorem sent_clearGrant (d : DriveNo) (s : State) : (clearGrant d s).sent = s.sent := rfl

@[simp] theorem sent_dropSelection (d : DriveNo) (s : State) : (dropSelection d s).sent = s.sent := rfl

@[simp] theorem sent_applyPolicy (join : List BufNo → State → State) (d : DriveNo) (s : State)
    (h : ∀ bs t, t.sent <+: (join bs t).sent) :
    (applyPolicy join d s).sent = s.sent ++ added (applyPolicy join d) s :=
  adds (by unfold applyPolicy; dsimp only; (repeat' split) <;> simp [h])

@[simp] theorem sent_enterIdle (d : DriveNo) (s : State) : (enterIdle d s).sent = s.sent ++ added (enterIdle d) s :=
  adds (by unfold enterIdle; split <;> simp)

@[simp] theorem sent_armIdle (d : DriveNo) (s : State) : (armIdle d s).sent = s.sent ++ added (armIdle d) s :=
  adds (by unfold armIdle; split <;> simp)

@[simp] theorem sent_givePasses (d : DriveNo) (i : QueueItem) (s : State) : (givePasses d i s).sent = s.sent := by
  unfold givePasses
  split <;> rfl

@[simp] theorem sent_orientTo (d : DriveNo) (o : Orient) (s : State) : (orientTo d o s).sent = s.sent := rfl

@[simp] theorem sent_endDestage (d : DriveNo) (b : BufNo) (s : State) :
    (endDestage d b s).sent = s.sent ++ added (endDestage d b) s :=
  adds (by simp [endDestage])

@[simp] theorem sent_destageNext (d : DriveNo) (b : BufNo) (home : HomeTrack) (after : Option SectorNo) (s : State) :
    (destageNext d b home after s).sent = s.sent ++ added (destageNext d b home after) s :=
  adds (by unfold destageNext; split <;> simp)

@[simp] theorem sent_relocArrives (d : DriveNo) (phase : RelocPhase) (s : State) :
    (relocArrives d phase s).sent = s.sent ++ added (relocArrives d phase) s :=
  adds (by unfold relocArrives; dsimp only; (repeat' split) <;> simp)

@[simp] theorem sent_arrived (d : DriveNo) (s : State) : (arrived d s).sent = s.sent ++ added (arrived d) s :=
  adds (by unfold arrived; (repeat' split) <;> simp)

@[simp] theorem sent_startSeek (d : DriveNo) (s : State) : (startSeek d s).sent = s.sent ++ added (startSeek d) s :=
  adds (by unfold startSeek; (repeat' split) <;> simp)

@[simp] theorem sent_engage (d : DriveNo) (w : Work) (s : State) :
    (engage d w s).sent = s.sent ++ added (engage d w) s :=
  adds (by unfold engage; split <;> simp)

@[simp] theorem sent_selectItem (d : DriveNo) (cur : Fin 604) (i : QueueItem) (s : State) :
    (selectItem d cur i s).sent = s.sent ++ added (selectItem d cur i) s :=
  adds (by unfold selectItem; dsimp only; (repeat' split) <;> simp)

@[simp] theorem sent_select (d : DriveNo) (s : State) : (select d s).sent = s.sent ++ added (select d) s :=
  adds (by unfold select; (repeat' split) <;> simp)

@[simp] theorem sent_settleEnds (d : DriveNo) (s : State) : (settleEnds d s).sent = s.sent ++ added (settleEnds d) s :=
  adds (by unfold settleEnds; (repeat' split) <;> simp)

@[simp] theorem sent_settleTick (d : DriveNo) (s : State) : (settleTick d s).sent = s.sent ++ added (settleTick d) s :=
  adds (by unfold settleTick; (repeat' split) <;> simp)

@[simp] theorem sent_destageCut (d : DriveNo) (k : Selection) (b : BufNo) (s : State) :
    (destageCut d k b s).sent = s.sent := by
  unfold destageCut
  split <;> rfl

/-! Chains (chapter 2). -/

@[simp] theorem sent_withdrawFrom (c : CtxNo) (x : Context) (s : State) :
    (withdrawFrom c x s).sent = s.sent ++ added (withdrawFrom c x) s :=
  adds (by unfold withdrawFrom; dsimp only; (repeat' split) <;> simp)

@[simp] theorem sent_beginEnding (c : CtxNo) (cond : Condition) (entry : Option Nat) (sectors : List SectorNo)
    (arm : State → State) (s : State) (h : ∀ t, t.sent <+: (arm t).sent) :
    (beginEnding c cond entry sectors arm s).sent = s.sent ++ added (beginEnding c cond entry sectors arm) s :=
  adds (by
    unfold beginEnding
    split
    · dsimp only
      split
      · exact List.IsPrefix.trans (by simp) (h _)
      · simp
    · simp)

@[simp] theorem sent_endChain (c : CtxNo) (cond : Condition) (entry : Option Nat) (sectors : List SectorNo)
    (arm : State → State) (s : State) (h : ∀ t, t.sent <+: (arm t).sent) :
    (endChain c cond entry sectors arm s).sent = s.sent ++ added (endChain c cond entry sectors arm) s :=
  adds (by unfold endChain; (repeat' split) <;> simp [sent_beginEnding _ _ _ _ _ _ h])

@[simp] theorem sent_raiseEnding (c : CtxNo) (s : State) : (raiseEnding c s).sent = s.sent ++ added (raiseEnding c) s :=
  adds (by unfold raiseEnding; (repeat' split) <;> simp)

@[simp] theorem sent_endAtEntry (c : CtxNo) (cond : Condition) (sectors : List SectorNo) (s : State) :
    (endAtEntry c cond sectors s).sent = s.sent ++ added (endAtEntry c cond sectors) s :=
  adds (by unfold endAtEntry; split <;> simp)

@[simp] theorem sent_detachArm (d : DriveNo) (s : State) : (detachArm d s).sent = s.sent ++ added (detachArm d) s :=
  adds (by unfold detachArm; split <;> simp)

@[simp] theorem sent_withdrawQuietly (c : CtxNo) (s : State) :
    (withdrawQuietly c s).sent = s.sent ++ added (withdrawQuietly c) s :=
  adds (by unfold withdrawQuietly; (repeat' split) <;> simp)

@[simp] theorem sent_freeWithdrawn (c : CtxNo) (s : State) :
    (freeWithdrawn c s).sent = s.sent ++ added (freeWithdrawn c) s :=
  adds (by simp [freeWithdrawn])

@[simp] theorem sent_freeContext (c : CtxNo) (s : State) : (freeContext c s).sent = s.sent ++ added (freeContext c) s :=
  adds (by unfold freeContext; split <;> simp)

@[simp] theorem sent_giveUpArm (c : CtxNo) (x : Context) (s : State) :
    (giveUpArm c x s).sent = s.sent ++ added (giveUpArm c x) s :=
  adds (by unfold giveUpArm; split <;> simp)

@[simp] theorem sent_needArm (c : CtxNo) (x : Context) (s : State) : (needArm c x s).sent = s.sent := by
  unfold needArm
  (repeat' split) <;> simp

@[simp] theorem sent_advance (c : CtxNo) (s : State) : (advance c s).sent = s.sent := rfl

@[simp] theorem sent_walkRead (c : CtxNo) (x : Context) (first : SectorNo) (count : Nat) (s : State) :
    (walkRead c x first count s).sent = s.sent ++ added (walkRead c x first count) s :=
  adds (by unfold walkRead; dsimp only; (repeat' split) <;> simp)

@[simp] theorem sent_walkWrite (c : CtxNo) (x : Context) (first : SectorNo) (count : Nat) (s : State) :
    (walkWrite c x first count s).sent = s.sent := by
  unfold walkWrite
  (repeat' split) <;> simp

@[simp] theorem sent_walk (c : CtxNo) (s : State) : (walk c s).sent = s.sent ++ added (walk c) s :=
  adds (by unfold walk; (repeat' split) <;> simp)

@[simp] theorem sent_startStep (c : CtxNo) (s : State) : (startStep c s).sent = s.sent ++ added (startStep c) s :=
  adds (by unfold startStep; (repeat' split) <;> simp)

@[simp] theorem sent_assigned (c : CtxNo) (s : State) : (assigned c s).sent = s.sent ++ added (assigned c) s :=
  adds (by unfold assigned; (repeat' split) <;> simp)

@[simp] theorem sent_endStep (c : CtxNo) (s : State) : (endStep c s).sent = s.sent ++ added (endStep c) s :=
  adds (by simp [endStep])

@[simp] theorem sent_nextStep (c : CtxNo) (s : State) : (nextStep c s).sent = s.sent ++ added (nextStep c) s :=
  adds (by unfold nextStep; (repeat' split) <;> simp)

@[simp] theorem sent_readDone (c : CtxNo) (s : State) : (readDone c s).sent = s.sent ++ added (readDone c) s :=
  adds (by unfold readDone; (repeat' split) <;> simp)

@[simp] theorem sent_deliver (c : CtxNo) (s : State) : (deliver c s).sent = s.sent ++ added (deliver c) s :=
  adds (by unfold deliver; dsimp only; (repeat' split) <;> simp)

@[simp] theorem sent_flushWait (c : CtxNo) (s : State) : (flushWait c s).sent = s.sent ++ added (flushWait c) s :=
  adds (by unfold flushWait; (repeat' split) <;> simp)

/-! Passes (chapter 6). -/

@[simp] theorem sent_modPass (f : Pass → Pass) (s : State) : (modPass f s).sent = s.sent := rfl

@[simp] theorem sent_clearDropped (d : DriveNo) (p : Pass) (s : State) :
    (clearDropped d p s).sent = s.sent ++ added (clearDropped d p) s :=
  adds (by unfold clearDropped; dsimp only; (repeat' split) <;> simp)

@[simp] theorem sent_endDropped (d : DriveNo) (p : Pass) (s : State) :
    (endDropped d p s).sent = s.sent ++ added (endDropped d p) s :=
  adds (by simp [endDropped])

@[simp] theorem sent_stopStep (d : DriveNo) (c : CtxNo) (cond : Condition) (x : SectorNo) (before : List Task)
    (s : State) :
    (stopStep d c cond x before s).sent = s.sent := by
  unfold stopStep
  split <;> rfl

@[simp] theorem sent_stopFault (d : DriveNo) (p : Pass) (x : SectorNo) (s : State) :
    (stopFault d p x s).sent = s.sent ++ added (stopFault d p x) s :=
  adds (by unfold stopFault; (repeat' split) <;> simp)

@[simp] theorem sent_withhold (d : DriveNo) (p : Pass) (x : SectorNo) (s : State) :
    (withhold d p x s).sent = s.sent ++ added (withhold d p x) s :=
  adds (by unfold withhold; (repeat' split) <;> simp)

@[simp] theorem sent_beginSector (d : DriveNo) (p : Pass) (s : State) :
    (beginSector d p s).sent = s.sent ++ added (beginSector d p) s :=
  adds (by unfold beginSector; dsimp only; (repeat' split) <;> simp)

@[simp] theorem sent_grantPass (d : DriveNo) (o : Orient) (s : State) :
    (grantPass d o s).sent = s.sent ++ added (grantPass d o) s :=
  adds (by unfold grantPass; (repeat' split) <;> simp)

@[simp] theorem sent_miss (d : DriveNo) (o : Orient) (s : State) : (miss d o s).sent = s.sent ++ added (miss d o) s :=
  adds (by unfold miss; dsimp only; (repeat' split) <;> simp)

@[simp] theorem sent_claim (d : DriveNo) (x : SectorNo) (s : State) :
    (claim d x s).sent = s.sent ++ added (claim d x) s :=
  adds (by unfold claim; (repeat' split) <;> simp)

@[simp] theorem sent_retryPass (d : DriveNo) (o : Orient) (left : List SectorNo) (s : State) :
    (retryPass d o left s).sent = s.sent := rfl

@[simp] theorem sent_finishPass (d : DriveNo) (p : Pass) (s : State) :
    (finishPass d p s).sent = s.sent ++ added (finishPass d p) s :=
  adds (by unfold finishPass; dsimp only; (repeat' split) <;> simp)

@[simp] theorem sent_satisfied (d : DriveNo) (x : SectorNo) (s : State) : (satisfied d x s).sent = s.sent := rfl

@[simp] theorem sent_takeWritten (d : DriveNo) (p : Pass) (x : SectorNo) (s : State) :
    (takeWritten d p x s).sent = s.sent ++ added (takeWritten d p x) s :=
  adds (by unfold takeWritten; (repeat' split) <;> simp)

@[simp] theorem sent_afterResult (d : DriveNo) (s : State) :
    (afterResult d s).sent = s.sent ++ added (afterResult d) s :=
  adds (by unfold afterResult; dsimp only; (repeat' split) <;> simp)

@[simp] theorem sent_takeRead (d : DriveNo) (p : Pass) (x : SectorNo) (data : Option (List Byte)) (s : State) :
    (takeRead d p x data s).sent = s.sent := by
  unfold takeRead
  dsimp only
  (repeat' split) <;> simp

@[simp] theorem sent_takeNext (d : DriveNo) (r : PassResult) (s : State) :
    (takeNext d r s).sent = s.sent ++ added (takeNext d r) s :=
  adds (by unfold takeNext; dsimp only; (repeat' split) <;> simp)

@[simp] theorem sent_sectorResult (d : DriveNo) (sec : SectorNo) (r : PassResult) (s : State) :
    (sectorResult d sec r s).sent = s.sent ++ added (sectorResult d sec r) s :=
  adds (by unfold sectorResult; (repeat' split) <;> simp)

@[simp] theorem sent_closeSector (d : DriveNo) (s : State) :
    (closeSector d s).sent = s.sent ++ added (closeSector d) s :=
  adds (by unfold closeSector; dsimp only; (repeat' split) <;> simp)

/-! Fences (chapter 10). -/

@[simp] theorem sent_sendSafeState (d : DriveNo) (s : State) :
    (sendSafeState d s).sent = s.sent ++ added (sendSafeState d) s :=
  adds (by unfold sendSafeState; split <;> simp)

@[simp] theorem sent_cutPass (d : DriveNo) (s : State) : (cutPass d s).sent = s.sent ++ added (cutPass d) s :=
  adds (by unfold cutPass; (repeat' split) <;> simp)

@[simp] theorem sent_enterFenced (d : DriveNo) (s : State) :
    (enterFenced d s).sent = s.sent ++ added (enterFenced d) s :=
  adds (by simp [enterFenced])

@[simp] theorem sent_fenceArm (d : DriveNo) (s : State) : (fenceArm d s).sent = s.sent ++ added (fenceArm d) s :=
  adds (by unfold fenceArm; split <;> simp)

@[simp] theorem sent_fenceWork (d : DriveNo) (k : Option Selection) (s : State) :
    (fenceWork d k s).sent = s.sent ++ added (fenceWork d k) s :=
  adds (by unfold fenceWork; (repeat' split) <;> simp)

@[simp] theorem sent_actOfFencing (d : DriveNo) (s : State) :
    (actOfFencing d s).sent = s.sent ++ added (actOfFencing d) s :=
  adds (by simp [actOfFencing])

@[simp] theorem sent_fenceTest (d : DriveNo) (s : State) : (fenceTest d s).sent = s.sent ++ added (fenceTest d) s :=
  adds (by unfold fenceTest; dsimp only; (repeat' split) <;> simp)

@[simp] theorem sent_clearFlag (d : DriveNo) (s : State) : (clearFlag d s).sent = s.sent := rfl

@[simp] theorem sent_autoReleaseTest (d : DriveNo) (s : State) :
    (autoReleaseTest d s).sent = s.sent ++ added (autoReleaseTest d) s :=
  adds (by unfold autoReleaseTest; dsimp only; (repeat' split) <;> simp)

@[simp] theorem sent_releaseRecord (d : DriveNo) (s : State) :
    (releaseRecord d s).sent = s.sent ++ added (releaseRecord d) s :=
  adds (by unfold releaseRecord; split <;> simp)

@[simp] theorem sent_releaseItems (d : DriveNo) (s : State) :
    (releaseItems d s).sent = s.sent ++ added (releaseItems d) s :=
  adds (by simp [releaseItems])

@[simp] theorem sent_releaseFence (d : DriveNo) (s : State) :
    (releaseFence d s).sent = s.sent ++ added (releaseFence d) s :=
  adds (by unfold releaseFence; dsimp only; (repeat' split) <;> simp)

@[simp] theorem sent_raiseReady (d : DriveNo) (why : Option RecalReason) (s : State) :
    (raiseReady d why s).sent = s.sent ++ added (raiseReady d why) s :=
  adds (by unfold raiseReady; split <;> simp)

@[simp] theorem sent_idleReady (d : DriveNo) (why : Option RecalReason) (s : State) :
    (idleReady d why s).sent = s.sent ++ added (idleReady d why) s :=
  adds (by simp [idleReady])

@[simp] theorem sent_recalibrated (d : DriveNo) (s : State) :
    (recalibrated d s).sent = s.sent ++ added (recalibrated d) s :=
  adds (by unfold recalibrated; (repeat' split) <;> simp)

@[simp] theorem sent_purge (d : DriveNo) (s : State) : (purge d s).sent = s.sent ++ added (purge d) s :=
  adds (by simp [purge])

/-! The loss of a drive (R13, R14). -/

@[simp] theorem sent_dropDrive (d : DriveNo) (ready late : Bool) (s : State) :
    (dropDrive d ready late s).sent = s.sent ++ added (dropDrive d ready late) s :=
  adds (by simp [dropDrive])

@[simp] theorem sent_loseBuffer (b : BufNo) (s : State) : (loseBuffer b s).sent = s.sent ++ added (loseBuffer b) s :=
  adds (by unfold loseBuffer; dsimp only; (repeat' split) <;> simp)

@[simp] theorem sent_losePack (d : DriveNo) (wasFenced : Bool) (s : State) :
    (losePack d wasFenced s).sent = s.sent ++ added (losePack d wasFenced) s :=
  adds (by unfold losePack; dsimp only; (repeat' split) <;> simp)

/-! The drive events. -/

@[simp] theorem sent_comingReady (d : DriveNo) (s : State) :
    (comingReady d s).sent = s.sent ++ added (comingReady d) s :=
  adds (by simp [comingReady])

@[simp] theorem sent_seekCheck (d : DriveNo) (s : State) : (seekCheck d s).sent = s.sent ++ added (seekCheck d) s :=
  adds (by unfold seekCheck; dsimp only; (repeat' split) <;> simp)

@[simp] theorem sent_seekOutcome (d : DriveNo) (good : Bool) (s : State) :
    (seekOutcome d good s).sent = s.sent ++ added (seekOutcome d good) s :=
  adds (by unfold seekOutcome; (repeat' split) <;> simp)

@[simp] theorem sent_indexEvent (d : DriveNo) (s : State) : (indexEvent d s).sent = s.sent ++ added (indexEvent d) s :=
  adds (by unfold indexEvent; dsimp only; (repeat' split) <;> simp)

@[simp] theorem sent_sectorEvent (d : DriveNo) (s : State) :
    (sectorEvent d s).sent = s.sent ++ added (sectorEvent d) s :=
  adds (by unfold sectorEvent; dsimp only; (repeat' split) <;> simp)

@[simp] theorem sent_faultOnPass (d : DriveNo) (s : State) :
    (faultOnPass d s).sent = s.sent ++ added (faultOnPass d) s :=
  adds (by unfold faultOnPass; (repeat' split) <;> simp)

/-! The link frames. -/

@[simp] theorem sent_joinCtxWait (l : LinkNo) (notify : Bool) (s : State) : (joinCtxWait l notify s).sent = s.sent := by
  unfold joinCtxWait
  split <;> rfl

theorem runPre_adds (l : LinkNo) (d : DriveNo) (es : List Entry) (i : Nat) (r : PreResult) :
    r.state.sent <+: (runPre l d es i r).state.sent := by
  induction es generalizing i r with
  | nil => exact List.prefix_rfl
  | cons e es ih =>
    cases e with
    | seek | read | write | flush => exact ih ..
    | sense => exact ih _ { r with sense := some (senseOf r.state d) }
    | reserve wait =>
      unfold runPre
      dsimp only
      split
      · exact List.IsPrefix.trans (by simp) (ih ..)
      · simp
    | release =>
      unfold runPre
      dsimp only
      split
      · exact List.IsPrefix.trans (by simp) (ih ..)
      · exact List.prefix_rfl

@[simp] theorem sent_decideChain (l : LinkNo) (d : DriveNo) (tag : Byte) (notify : Bool) (es : List Entry) (s : State) :
    (decideChain l d tag notify es s).sent = s.sent ++ added (decideChain l d tag notify es) s :=
  adds (by
    refine List.IsPrefix.trans (runPre_adds l d (preSteps es) 0 ⟨s, none, none⟩) ?_
    unfold decideChain
    dsimp only
    (repeat' split) <;> simp)

@[simp] theorem sent_acceptance (l : LinkNo) (unit : BitVec 4) (tag : Byte) (notify : Bool) (count : Byte)
    (body : List Byte) (s : State) :
    (acceptance l unit tag notify count body s).sent = s.sent ++ added (acceptance l unit tag notify count body) s :=
  adds (by unfold acceptance; dsimp only; (repeat' split) <;> simp)

@[simp] theorem sent_haltCtx (c : CtxNo) (s : State) : (haltCtx c s).sent = s.sent ++ added (haltCtx c) s :=
  adds (by unfold haltCtx; (repeat' split) <;> simp)

@[simp] theorem sent_resetCtx (c : CtxNo) (s : State) : (resetCtx c s).sent = s.sent ++ added (resetCtx c) s :=
  adds (by unfold resetCtx; split <;> simp)

@[simp] theorem sent_resetLink (l : LinkNo) (enters : LinkState) (s : State) :
    (resetLink l enters s).sent = s.sent ++ added (resetLink l enters) s :=
  adds (by simp [resetLink])

@[simp] theorem sent_setLine (l : LinkNo) (up : Bool) (s : State) : (setLine l up s).sent = s.sent := rfl

@[simp] theorem sent_deliveryEnds (l : LinkNo) (c : CtxNo) (x : Context) (s : State) :
    (deliveryEnds l c x s).sent = s.sent ++ added (deliveryEnds l c x) s :=
  adds (by unfold deliveryEnds; split <;> simp)

/-! Management operations (chapter 11). -/

@[simp] theorem sent_setCursor (l : LinkNo) (k : Option Cursor) (s : State) : (setCursor l k s).sent = s.sent := rfl

@[simp] theorem sent_writeRow (target : LinkNo) (row : Vector Bool 8) (s : State) :
    (writeRow target row s).sent = s.sent ++ added (writeRow target row) s :=
  sent_each _ _ _ fun d t => by split <;> simp

@[simp] theorem sent_writePolicy (d : DriveNo) (p : Policy) (s : State) :
    (writePolicy d p s).sent = s.sent ++ added (writePolicy d p) s :=
  adds (by unfold writePolicy; dsimp only; (repeat' split) <;> simp)

@[simp] theorem sent_beginMap (d : DriveNo) (s : State) : (beginMap d s).sent = s.sent ++ added (beginMap d) s :=
  adds (by unfold beginMap; dsimp only; split <;> simp [sent_each _ emptyBuffer _ fun _ _ => List.prefix_rfl])

@[simp] theorem sent_commitMap (d : DriveNo) (s : State) : (commitMap d s).sent = s.sent ++ added (commitMap d) s :=
  adds (by simp [commitMap])

@[simp] theorem sent_discard (b : BufNo) (s : State) : (discard b s).sent = s.sent ++ added (discard b) s :=
  adds (by unfold discard; dsimp only; (repeat' split) <;> simp)

/-! The resets (R199). -/

@[simp] theorem sent_resetPort (l : LinkNo) (s : State) : (resetPort l s).sent = s.sent := by
  unfold resetPort
  split <;> rfl

@[simp] theorem sent_dropRelocation (d : DriveNo) (s : State) : (dropRelocation d s).sent = s.sent := by
  unfold dropRelocation
  (repeat' split) <;> rfl

@[simp] theorem sent_sparesQuietly (d : DriveNo) (s : State) : (sparesQuietly d s).sent = s.sent := rfl

@[simp] theorem sent_resetArm (d : DriveNo) (s : State) : (resetArm d s).sent = s.sent := by
  unfold resetArm
  (repeat' split) <;> rfl

@[simp] theorem sent_policyQuietly (d : DriveNo) (s : State) : (policyQuietly d s).sent = s.sent := by
  unfold policyQuietly
  (repeat' split) <;> rfl

@[simp] theorem sent_resetBuffer (b : BufNo) (s : State) : (resetBuffer b s).sent = s.sent ++ added (resetBuffer b) s :=
  adds (by unfold resetBuffer; dsimp only; (repeat' split) <;> simp)

@[simp] theorem sent_resetController (s : State) : (resetController s).sent = s.sent ++ added resetController s :=
  adds (by simp [resetController])

@[simp] theorem sent_turnSwitches (turned : Option (Vector Byte 8)) (s : State) :
    (turnSwitches turned s).sent = s.sent := by
  unfold turnSwitches
  split <;> rfl

@[simp] theorem sent_writeLevels (l target : LinkNo) (levels : Vector (Fin 16) 13) (s : State) :
    (writeLevels l target levels s).sent = s.sent ++ added (writeLevels l target levels) s :=
  adds (by unfold writeLevels; dsimp only; split <;> simp)

@[simp] theorem sent_runTask (k : Task) (s : State) : (runTask k s).sent = s.sent ++ added (runTask k) s :=
  adds (by cases k <;> simp [runTask])

/-! The commands. -/

/-- What a command answers, it only adds to what has been sent. -/
def OnlyAdds (s : State) (o : Host.Outcome State Fault Refusal) : Prop := ∀ t, o = .next t → s.sent <+: t.sent

/-- A command adds what its effect and its internal work add. -/
theorem take_onlyAdds {f : State → State} (s : State) (hf : ∀ u, u.sent <+: (f u).sent) : OnlyAdds s (take s f) :=
  fun _ h => take_keeps (P := fun u => s.sent <+: u.sent) (fun _ _ hu => hu) (fun k u hu => hu.trans (by simp))
    (fun u hu => hu.trans (hf u)) List.prefix_rfl h

@[simp] theorem accept_early (early : State → State) (late : List Task) : (accept early late).early = early := rfl

@[simp] theorem refuse_early (r : Reason) : (refuse r).early = id := rfl

/-- A management frame adds its answer and what the effects of its operation add. -/
theorem manage_adds (l : LinkNo) (tag code : Byte) (needsFull lengthOk : Bool) {verdict : State → Verdict}
    (hv : ∀ u t, t.sent <+: ((verdict u).early t).sent) (s : State) :
    s.sent <+: (manage l tag code needsFull lengthOk verdict s).sent := by
  have hc : ∀ u t, t.sent <+: ((checkedVerdict u l needsFull lengthOk verdict).early t).sent := fun u t => by
    unfold checkedVerdict
    (repeat' split) <;> simp [hv]
  unfold manage
  split
  · exact List.prefix_rfl
  · exact List.IsPrefix.trans (by simp) (hc _ _)
  · simp
  · simp

theorem manage_onlyAdds {l : LinkNo} {tag code : Byte} {needsFull lengthOk : Bool} {verdict : State → Verdict}
    (s : State) (hv : ∀ u t, t.sent <+: ((verdict u).early t).sent) :
    OnlyAdds s (take s (manage l tag code needsFull lengthOk verdict)) :=
  take_onlyAdds s (manage_adds l tag code needsFull lengthOk hv)

theorem execCommandFrame_onlyAdds (l : LinkNo) (unit : BitVec 4) (tag : Byte) (notify : Bool) (count : Byte)
    (body : List Byte) (s : State) : OnlyAdds s (execCommandFrame l unit tag notify count body s) := by
  unfold execCommandFrame
  refine take_onlyAdds s fun u => ?_
  split <;> simp

theorem execDataFrame_onlyAdds (l : LinkNo) (tag sector : Byte) (data : List Byte) (s : State) :
    OnlyAdds s (execDataFrame l tag sector data s) := by
  unfold execDataFrame
  refine take_onlyAdds s fun u => ?_
  dsimp only
  (repeat' split) <;> simp

theorem execAccept_onlyAdds (l : LinkNo) (s : State) : OnlyAdds s (execAccept l s) := by
  unfold execAccept
  refine take_onlyAdds s fun u => ?_
  dsimp only
  (repeat' split) <;> simp

theorem execDefer_onlyAdds (l : LinkNo) (s : State) : OnlyAdds s (execDefer l s) := by
  unfold execDefer
  refine take_onlyAdds s fun u => ?_
  simp

theorem execResume_onlyAdds (l : LinkNo) (s : State) : OnlyAdds s (execResume l s) := by
  unfold execResume
  refine take_onlyAdds s fun u => ?_
  split <;> simp

theorem execHalt_onlyAdds (l : LinkNo) (tag : Byte) (s : State) : OnlyAdds s (execHalt l tag s) := by
  unfold execHalt
  refine take_onlyAdds s fun u => ?_
  dsimp only
  (repeat' split) <;> simp

theorem execLinkReset_onlyAdds (l : LinkNo) (s : State) : OnlyAdds s (execLinkReset l s) := by
  unfold execLinkReset
  refine take_onlyAdds s fun u => ?_
  split <;> simp

theorem execLinkDown_onlyAdds (l : LinkNo) (s : State) : OnlyAdds s (execLinkDown l s) := by
  unfold execLinkDown
  refine take_onlyAdds (setLine l false s) fun u => ?_
  split <;> simp

theorem execLinkUp_onlyAdds (l : LinkNo) (s : State) : OnlyAdds s (execLinkUp l s) := by
  unfold execLinkUp
  refine take_onlyAdds (setLine l true s) fun u => ?_
  split <;> simp

theorem execFrameCheckFailure_onlyAdds (l : LinkNo) (frame : List Byte) (s : State) :
    OnlyAdds s (execFrameCheckFailure l frame s) :=
  take_onlyAdds s fun _ => List.prefix_rfl

theorem execManageInvalid_onlyAdds (l : LinkNo) (tag : Byte) (why : ManageFault) (s : State) :
    OnlyAdds s (execManageInvalid l tag why s) := by
  unfold execManageInvalid
  refine manage_onlyAdds s fun u v => ?_
  simp

theorem execAttach_onlyAdds (l : LinkNo) (tag : Byte) (operand : List Byte) (turned : Option (Vector Byte 8))
    (s : State) : OnlyAdds s (execAttach l tag operand turned s) := by
  have h : OnlyAdds (turnSwitches turned s) (execAttach l tag operand turned s) := by
    unfold execAttach
    refine manage_onlyAdds _ fun u v => ?_
    unfold attachVerdict
    (repeat' split) <;> simp
  simpa [OnlyAdds] using h

theorem execStatusRead_onlyAdds (l : LinkNo) (tag : Byte) (operand : List Byte) (s : State) :
    OnlyAdds s (execStatusRead l tag operand s) := by
  unfold execStatusRead
  refine manage_onlyAdds s fun u v => ?_
  split <;> simp

theorem execMapRead_onlyAdds (l : LinkNo) (tag : Byte) (operand : List Byte) (s : State) :
    OnlyAdds s (execMapRead l tag operand s) := by
  unfold execMapRead
  refine manage_onlyAdds s fun u v => ?_
  unfold mapReadVerdict
  dsimp only
  (repeat' split) <;> simp

theorem execSuspectRead_onlyAdds (l : LinkNo) (tag : Byte) (operand : List Byte) (s : State) :
    OnlyAdds s (execSuspectRead l tag operand s) := by
  unfold execSuspectRead
  refine manage_onlyAdds s fun u v => ?_
  unfold suspectReadVerdict
  dsimp only
  (repeat' split) <;> simp

theorem execBufferRead_onlyAdds (l : LinkNo) (tag : Byte) (operand : List Byte) (s : State) :
    OnlyAdds s (execBufferRead l tag operand s) := by
  unfold execBufferRead
  refine manage_onlyAdds s fun u v => ?_
  simp

theorem execCaptureRead_onlyAdds (l : LinkNo) (tag : Byte) (operand : List Byte) (s : State) :
    OnlyAdds s (execCaptureRead l tag operand s) := by
  unfold execCaptureRead
  refine manage_onlyAdds s fun u v => ?_
  simp

theorem execPriorityWrite_onlyAdds (l : LinkNo) (tag : Byte) (operand : List Byte) (s : State) :
    OnlyAdds s (execPriorityWrite l tag operand s) := by
  unfold execPriorityWrite
  refine manage_onlyAdds s fun u v => ?_
  (repeat' split) <;> simp

theorem execPathWrite_onlyAdds (l : LinkNo) (tag : Byte) (operand : List Byte) (s : State) :
    OnlyAdds s (execPathWrite l tag operand s) := by
  unfold execPathWrite
  refine manage_onlyAdds s fun u v => ?_
  (repeat' split) <;> simp

theorem execPolicyWrite_onlyAdds (l : LinkNo) (tag : Byte) (operand : List Byte) (s : State) :
    OnlyAdds s (execPolicyWrite l tag operand s) := by
  unfold execPolicyWrite
  refine manage_onlyAdds s fun u v => ?_
  (repeat' split) <;> simp

theorem execMapBegin_onlyAdds (l : LinkNo) (tag : Byte) (operand : List Byte) (s : State) :
    OnlyAdds s (execMapBegin l tag operand s) := by
  unfold execMapBegin
  refine manage_onlyAdds s fun u v => ?_
  unfold driveVerdict
  dsimp only
  (repeat' split) <;> simp

theorem execMapLoad_onlyAdds (l : LinkNo) (tag : Byte) (operand : List Byte) (s : State) :
    OnlyAdds s (execMapLoad l tag operand s) := by
  unfold execMapLoad
  refine manage_onlyAdds s fun u v => ?_
  (repeat' split) <;> simp

theorem execMapCommit_onlyAdds (l : LinkNo) (tag : Byte) (operand : List Byte) (s : State) :
    OnlyAdds s (execMapCommit l tag operand s) := by
  unfold execMapCommit
  refine manage_onlyAdds s fun u v => ?_
  unfold driveVerdict
  dsimp only
  (repeat' split) <;> simp

theorem execRelocate_onlyAdds (l : LinkNo) (tag : Byte) (operand : List Byte) (s : State) :
    OnlyAdds s (execRelocate l tag operand s) := by
  unfold execRelocate
  refine manage_onlyAdds s fun u v => ?_
  unfold trackVerdict
  dsimp only
  (repeat' split) <;> simp

theorem execSuspectPlace_onlyAdds (l : LinkNo) (tag : Byte) (operand : List Byte) (s : State) :
    OnlyAdds s (execSuspectPlace l tag operand s) := by
  unfold execSuspectPlace
  refine manage_onlyAdds s fun u v => ?_
  unfold trackVerdict placeVerdict
  dsimp only
  (repeat' split) <;> simp

theorem execSuspectRemove_onlyAdds (l : LinkNo) (tag : Byte) (operand : List Byte) (s : State) :
    OnlyAdds s (execSuspectRemove l tag operand s) := by
  unfold execSuspectRemove
  refine manage_onlyAdds s fun u v => ?_
  unfold trackVerdict
  dsimp only
  (repeat' split) <;> simp

theorem execFenceForce_onlyAdds (l : LinkNo) (tag : Byte) (operand : List Byte) (s : State) :
    OnlyAdds s (execFenceForce l tag operand s) := by
  unfold execFenceForce
  refine manage_onlyAdds s fun u v => ?_
  unfold driveVerdict
  dsimp only
  (repeat' split) <;> simp

theorem execFenceClear_onlyAdds (l : LinkNo) (tag : Byte) (operand : List Byte) (s : State) :
    OnlyAdds s (execFenceClear l tag operand s) := by
  unfold execFenceClear
  refine manage_onlyAdds s fun u v => ?_
  unfold driveVerdict
  dsimp only
  (repeat' split) <;> simp

theorem execFencePurge_onlyAdds (l : LinkNo) (tag : Byte) (operand : List Byte) (s : State) :
    OnlyAdds s (execFencePurge l tag operand s) := by
  unfold execFencePurge
  refine manage_onlyAdds s fun u v => ?_
  unfold driveVerdict
  dsimp only
  (repeat' split) <;> simp

theorem execForceRelease_onlyAdds (l : LinkNo) (tag : Byte) (operand : List Byte) (s : State) :
    OnlyAdds s (execForceRelease l tag operand s) := by
  unfold execForceRelease
  refine manage_onlyAdds s fun u v => ?_
  (repeat' split) <;> simp

theorem execBufferDiscard_onlyAdds (l : LinkNo) (tag : Byte) (operand : List Byte) (s : State) :
    OnlyAdds s (execBufferDiscard l tag operand s) := by
  unfold execBufferDiscard
  refine manage_onlyAdds s fun u v => ?_
  unfold bufferVerdict
  dsimp only
  (repeat' split) <;> simp

theorem execParityForce_onlyAdds (l : LinkNo) (tag : Byte) (operand : List Byte) (s : State) :
    OnlyAdds s (execParityForce l tag operand s) := by
  unfold execParityForce
  refine manage_onlyAdds s fun u v => ?_
  unfold bufferVerdict
  dsimp only
  (repeat' split) <;> simp

theorem execControllerReset_onlyAdds (l : LinkNo) (tag : Byte) (operand : List Byte) (s : State) :
    OnlyAdds s (execControllerReset l tag operand s) := by
  unfold execControllerReset
  refine manage_onlyAdds s fun u v => ?_
  simp

theorem execOfferTimeout_onlyAdds (l : LinkNo) (s : State) : OnlyAdds s (execOfferTimeout l s) := by
  unfold execOfferTimeout
  refine take_onlyAdds s fun u => ?_
  simp

theorem execDataTimeout_onlyAdds (l : LinkNo) (s : State) : OnlyAdds s (execDataTimeout l s) := by
  unfold execDataTimeout
  refine take_onlyAdds s fun u => ?_
  (repeat' split) <;> simp

theorem execSeekTimeout_onlyAdds (d : DriveNo) (s : State) : OnlyAdds s (execSeekTimeout d s) := by
  unfold execSeekTimeout
  refine take_onlyAdds s fun u => ?_
  simp

theorem execRecalibrateTimeout_onlyAdds (d : DriveNo) (s : State) : OnlyAdds s (execRecalibrateTimeout d s) := by
  unfold execRecalibrateTimeout
  refine take_onlyAdds s fun u => ?_
  split <;> simp

theorem execReady_onlyAdds (d : DriveNo) (s : State) : OnlyAdds s (execReady d s) := by
  unfold execReady
  refine take_onlyAdds s fun u => ?_
  split <;> simp

theorem execNotReady_onlyAdds (d : DriveNo) (s : State) : OnlyAdds s (execNotReady d s) := by
  unfold execNotReady
  refine take_onlyAdds s fun u => ?_
  split <;> simp

theorem execSeekDone_onlyAdds (d : DriveNo) (good : Bool) (s : State) : OnlyAdds s (execSeekDone d good s) := by
  unfold execSeekDone
  refine take_onlyAdds s fun u => ?_
  simp

theorem execRecalDone_onlyAdds (d : DriveNo) (good : Bool) (s : State) : OnlyAdds s (execRecalDone d good s) := by
  unfold execRecalDone
  refine take_onlyAdds s fun u => ?_
  (repeat' split) <;> simp

theorem execIndex_onlyAdds (d : DriveNo) (s : State) : OnlyAdds s (execIndex d s) := by
  unfold execIndex
  refine take_onlyAdds s fun u => ?_
  simp

theorem execSector_onlyAdds (d : DriveNo) (s : State) : OnlyAdds s (execSector d s) := by
  unfold execSector
  refine take_onlyAdds s fun u => ?_
  simp

theorem execSectorResult_onlyAdds (d : DriveNo) (sec : SectorNo) (r : PassResult) (s : State) :
    OnlyAdds s (execSectorResult d sec r s) := by
  unfold execSectorResult
  refine take_onlyAdds s fun u => ?_
  simp

theorem execConditionRaised_onlyAdds (d : DriveNo) (c : DriveCondition) (s : State) :
    OnlyAdds s (execConditionRaised d c s) := by
  unfold execConditionRaised
  refine take_onlyAdds s fun u => ?_
  dsimp only
  (repeat' split) <;> simp

theorem execConditionCleared_onlyAdds (d : DriveNo) (c : DriveCondition) (s : State) :
    OnlyAdds s (execConditionCleared d c s) := by
  unfold execConditionCleared
  refine take_onlyAdds s fun u => ?_
  split <;> simp

theorem execSettleEnd_onlyAdds (d : DriveNo) (s : State) : OnlyAdds s (execSettleEnd d s) := by
  unfold execSettleEnd
  refine take_onlyAdds s fun u => ?_
  (repeat' split) <;> simp

theorem execPassEnd_onlyAdds (d : DriveNo) (e : PassCloser) (s : State) : OnlyAdds s (execPassEnd d e s) := by
  unfold execPassEnd
  refine take_onlyAdds s fun u => ?_
  (repeat' split) <;> simp

theorem execDeliveryFrame_onlyAdds (l : LinkNo) (s : State) : OnlyAdds s (execDeliveryFrame l s) := by
  unfold execDeliveryFrame
  refine take_onlyAdds s fun u => ?_
  dsimp only
  (repeat' split) <;> simp

theorem execPowerOnClear_onlyAdds (s : State) : OnlyAdds s (execPowerOnClear s) := by
  rintro _ ⟨⟩
  exact List.prefix_rfl

theorem execPowerOnClearAsserted_onlyAdds (s : State) : OnlyAdds s (execPowerOnClearAsserted s) := by
  rintro _ ⟨⟩
  exact List.prefix_rfl

theorem exec_onlyAdds (c : Instr) (s : State) : OnlyAdds s (exec c s) := by
  cases c with
  | commandFrame l unit tag notify count body => exact execCommandFrame_onlyAdds l unit tag notify count body s
  | dataFrame l tag sector data => exact execDataFrame_onlyAdds l tag sector data s
  | accept l => exact execAccept_onlyAdds l s
  | defer l => exact execDefer_onlyAdds l s
  | resume l => exact execResume_onlyAdds l s
  | halt l tag => exact execHalt_onlyAdds l tag s
  | linkReset l => exact execLinkReset_onlyAdds l s
  | linkDown l => exact execLinkDown_onlyAdds l s
  | linkUp l => exact execLinkUp_onlyAdds l s
  | frameCheckFailure l frame => exact execFrameCheckFailure_onlyAdds l frame s
  | manageInvalid l tag why => exact execManageInvalid_onlyAdds l tag why s
  | attach l tag operand turned => exact execAttach_onlyAdds l tag operand turned s
  | statusRead l tag operand => exact execStatusRead_onlyAdds l tag operand s
  | mapRead l tag operand => exact execMapRead_onlyAdds l tag operand s
  | suspectRead l tag operand => exact execSuspectRead_onlyAdds l tag operand s
  | bufferRead l tag operand => exact execBufferRead_onlyAdds l tag operand s
  | captureRead l tag operand => exact execCaptureRead_onlyAdds l tag operand s
  | priorityWrite l tag operand => exact execPriorityWrite_onlyAdds l tag operand s
  | pathWrite l tag operand => exact execPathWrite_onlyAdds l tag operand s
  | policyWrite l tag operand => exact execPolicyWrite_onlyAdds l tag operand s
  | mapBegin l tag operand => exact execMapBegin_onlyAdds l tag operand s
  | mapLoad l tag operand => exact execMapLoad_onlyAdds l tag operand s
  | mapCommit l tag operand => exact execMapCommit_onlyAdds l tag operand s
  | relocate l tag operand => exact execRelocate_onlyAdds l tag operand s
  | suspectPlace l tag operand => exact execSuspectPlace_onlyAdds l tag operand s
  | suspectRemove l tag operand => exact execSuspectRemove_onlyAdds l tag operand s
  | fenceForce l tag operand => exact execFenceForce_onlyAdds l tag operand s
  | fenceClear l tag operand => exact execFenceClear_onlyAdds l tag operand s
  | fencePurge l tag operand => exact execFencePurge_onlyAdds l tag operand s
  | forceRelease l tag operand => exact execForceRelease_onlyAdds l tag operand s
  | bufferDiscard l tag operand => exact execBufferDiscard_onlyAdds l tag operand s
  | parityForce l tag operand => exact execParityForce_onlyAdds l tag operand s
  | controllerReset l tag operand => exact execControllerReset_onlyAdds l tag operand s
  | offerTimeout l => exact execOfferTimeout_onlyAdds l s
  | dataTimeout l => exact execDataTimeout_onlyAdds l s
  | seekTimeout d => exact execSeekTimeout_onlyAdds d s
  | recalibrateTimeout d => exact execRecalibrateTimeout_onlyAdds d s
  | ready d => exact execReady_onlyAdds d s
  | notReady d => exact execNotReady_onlyAdds d s
  | seekDone d good => exact execSeekDone_onlyAdds d good s
  | recalDone d good => exact execRecalDone_onlyAdds d good s
  | index d => exact execIndex_onlyAdds d s
  | sector d => exact execSector_onlyAdds d s
  | sectorResult d sec r => exact execSectorResult_onlyAdds d sec r s
  | conditionRaised d k => exact execConditionRaised_onlyAdds d k s
  | conditionCleared d k => exact execConditionCleared_onlyAdds d k s
  | settleEnd d => exact execSettleEnd_onlyAdds d s
  | passEnd d e => exact execPassEnd_onlyAdds d e s
  | deliveryFrame l => exact execDeliveryFrame_onlyAdds l s
  | powerOnClear => exact execPowerOnClear_onlyAdds s
  | powerOnClearAsserted => exact execPowerOnClearAsserted_onlyAdds s

/-- Settles O11: every operation adds to what has been sent, and so does every command. -/
theorem sentStands : Obligations.SentStands := by
  intro c s t h
  obtain ⟨more, hm⟩ := exec_onlyAdds c s t h
  exact ⟨more, hm.symm⟩

end Sys2Proof.Machine.DriveString
end

section
namespace Sys2Proof.Machine.DriveString
open Sys2Proof.Machine.Laws

/-! SUPPORT. The drive string: one rule for each operation of the arm that the statements of chapter 1 go through. -/

/-! A command between two others, and the pieces of work it hands on. -/

/-- A command taken between two others whose effect hands on no work. -/
theorem take_effect {s t : State} {f : State → State} (hs : calm s) (hf : f s = t) (ht : t.work = []) :
    take s f = .next t := by
  obtain ⟨hc, hw⟩ := hs
  subst hf
  exact take_plain s f hc hw ht

/-- A command taken between two others whose effect hands on one piece of work, which hands on nothing. -/
theorem take_single {s u t : State} {f : State → State} {k : Task} (hs : calm s) (hf : f s = u.later [k])
    (hu : u.work = []) (hk : runTask k u = t) (ht : t.work = []) : take s f = .next t := by
  obtain ⟨hc, hw⟩ := hs
  subst hk
  rw [take_calm s f hc hw, hf, settle_single u k hu ht]

theorem drain_quiet (n : Nat) (k : Task) (ks : List Task) (s : State) (h : (runTask k s).work = []) :
    drain (n + 1) (k :: ks) s = drain n ks (runTask k s) := by
  rw [drain_cons, h, List.nil_append, ← h]

/-- Two pieces of work, neither of which hands anything on. -/
theorem settle_pair (s : State) (j k : Task) (hs : s.work = []) (hj : (runTask j s).work = [])
    (hk : (runTask k (runTask j s)).work = []) : settle (s.later [j, k]) = runTask k (runTask j s) := by
  have hl : ({ s.later [j, k] with work := [] } : State) = s := by
    rw [← hs]
    rfl
  have hw : (s.later [j, k]).work = [j, k] := by simp [hs]
  unfold settle
  rw [hl, hw]
  show drain (4094 + 1 + 1) [j, k] s = _
  rw [drain_quiet _ _ _ _ hj, drain_quiet _ _ _ _ hk]
  rfl

/-- A command taken between two others whose effect hands on two pieces of work, neither of which hands anything on. -/
theorem take_pair {s u v t : State} {f : State → State} {j k : Task} (hs : calm s) (hf : f s = u.later [j, k])
    (hu : u.work = []) (hj : runTask j u = v) (hv : v.work = []) (hk : runTask k v = t) (ht : t.work = []) :
    take s f = .next t := by
  obtain ⟨hc, hw⟩ := hs
  subst hj hk
  rw [take_calm s f hc hw, hf, settle_pair u j k hu hv ht]

/-! The Drive Record. -/

/-- The Drive Record of a drive that has been changed. -/
@[simp] theorem drive_modDrive (d e : DriveNo) (f : Drive → Drive) (s : State) :
    (s.modDrive d f).drive e = if d = e then f (s.drive d) else s.drive e := get_change s.drives d e f

/-- Two changes of one Drive Record are one change. -/
theorem modDrive_modDrive (d : DriveNo) (f g : Drive → Drive) (s : State) :
    (s.modDrive d f).modDrive d g = s.modDrive d fun r => g (f r) := by
  simp [State.modDrive]

/-- A change of a Drive Record is what it does to the record as it stands. -/
theorem modDrive_congr {d : DriveNo} {f g : Drive → Drive} {s : State} (h : f (s.drive d) = g (s.drive d)) :
    s.modDrive d f = s.modDrive d g := by
  have h' : f (s.drives.get d) = g (s.drives.get d) := h
  simp only [State.modDrive, change, h']

/-- A change that leaves the record as it stands changes nothing. -/
theorem modDrive_same {d : DriveNo} {f : Drive → Drive} {s : State} (h : f (s.drive d) = s.drive d) :
    s.modDrive d f = s := by
  have h' : change s.drives d f = s.drives := change_id _ _ _ h
  simp only [State.modDrive, h']

/-! The rotational position (R5). -/

theorem advancePosition_unseen {r : Drive} (h : r.indexSeen = false) : advancePosition r = r := by
  simp [advancePosition, h]

theorem advancePosition_none {r : Drive} (h : r.indexSeen = true) (hp : r.position = none) :
    advancePosition r = { r with position := some 0 } := by
  simp [advancePosition, h, hp]

theorem advancePosition_next {r : Drive} {n : SectorNo} (h : r.indexSeen = true) (hp : r.position = some n)
    (hn : n.val < 15) : advancePosition r = { r with position := some (n + 1) } := by
  have hv : (⟨n.val + 1, by omega⟩ : SectorNo) = n + 1 := by
    apply Fin.ext
    simp only [Fin.val_add]
    omega
  simp [advancePosition, h, hp, hv, show n.val + 1 < 16 by omega]

theorem advancePosition_last {r : Drive} (h : r.indexSeen = true) (hp : r.position = some 15) :
    advancePosition r = { r with indexSeen := false, position := none } := by
  simp [advancePosition, h, hp]

/-- An INDEX that the arm does nothing else with. -/
theorem indexEvent_turning {d : DriveNo} {s : State} (h : (s.drive d).arm = .idle ∨ (s.drive d).arm = .seeking) :
    indexEvent d s = s.modDrive d fun r => { r with indexSeen := true, position := none } := by
  rcases h with h | h <;> simp [indexEvent, h]

/-- A SECTOR that the arm does nothing else with. -/
theorem sectorEvent_turning {d : DriveNo} {s : State} (h : (s.drive d).arm = .idle ∨ (s.drive d).arm = .seeking) :
    sectorEvent d s = s.modDrive d advancePosition := by
  rcases h with h | h <;> simp [sectorEvent, h]

theorem indexEvent_notReady {d : DriveNo} {s : State} (h : (s.drive d).arm = .notReady)
    (hr : (s.drive d).ready = false) : indexEvent d s = s := by
  simp [indexEvent, h, hr]

theorem sectorEvent_notReady {d : DriveNo} {s : State} (h : (s.drive d).arm = .notReady) : sectorEvent d s = s := by
  simp [sectorEvent, h]

/-- Settles O49: INDEX and SECTOR by arm state, and the position by the flag and the position before. -/
theorem rotationalPosition : Obligations.RotationalPosition := by
  intro d s hs
  have sector : ∀ {f : Drive → Drive}, (s.drive d).arm = .idle ∨ (s.drive d).arm = .seeking →
      advancePosition (s.drive d) = f (s.drive d) → exec (.sector d) s = .next (s.modDrive d f) :=
    fun h hf => take_effect hs ((sectorEvent_turning h).trans (modDrive_congr hf)) hs.2
  refine ⟨fun h => ⟨?_, fun hu => ?_, fun hu hp => ?_, fun n hu hp hn => ?_, fun hu hp => ?_⟩, fun h => ?_,
    fun h hr => ?_⟩
  · exact take_effect hs (indexEvent_turning h) hs.2
  · exact take_effect hs ((sectorEvent_turning h).trans (modDrive_same (advancePosition_unseen hu))) hs.2
  · exact sector h (advancePosition_none hu hp)
  · exact sector h (advancePosition_next hu hp hn)
  · exact sector h (advancePosition_last hu hp)
  · exact take_effect hs (sectorEvent_notReady h) hs.2
  · exact take_effect hs (indexEvent_notReady h hr) hs.2

/-! Translation of a home track (R2). -/

/-- The map entry of a home track is the first that names it. -/
theorem entry_first {t : Tracks} {h : HomeTrack} {before after : List MapEntry} {e : MapEntry}
    (ht : t.entries = before ++ e :: after) (he : e.home = h) (hb : ∀ k ∈ before, k.home ≠ h) : t.entry h = some e := by
  have hn : before.find? (fun k => k.home == h) = none := List.find?_eq_none.mpr (by simpa using hb)
  simp [Tracks.entry, ht, List.find?_append, hn, he]

theorem entry_absent {t : Tracks} {h : HomeTrack} (hn : ∀ e ∈ t.entries, e.home ≠ h) : t.entry h = none :=
  List.find?_eq_none.mpr (by simpa using hn)

/-- Settles O58: the first entry that names the home track decides. -/
theorem translationByMap : Obligations.TranslationByMap := by
  intro t h
  constructor
  · intro before e after ht he hb
    simp [translate, entry_first ht he hb, sparePhys]
  · intro hn
    simp [translate, entry_absent hn, HomeTrack.phys]

end Sys2Proof.Machine.DriveString
end

section
namespace Sys2Proof.Machine.DriveString
open Sys2Proof.Machine.Laws

/-! SUPPORT. The arm's entry to IDLE with no work, a recalibration's start and end (R7, R8, R87). -/

theorem startRecal_eq (d : DriveNo) (why : RecalReason) (s : State) : startRecal d why s = recalibrates d why s := rfl

theorem dropSelection_eq (d : DriveNo) (s : State) : dropSelection d s = unselected d s := rfl

theorem unselected_modDrive (d e : DriveNo) (f : Drive → Drive) (s : State) :
    (unselected d s).modDrive e f = unselected d (s.modDrive e f) := rfl

/-- Removing a selection leaves the Drive Records, the queue's emptiness and the relocation alone. -/
theorem noWork_unselected {d : DriveNo} {s : State} (h : noWork d s) : noWork d (unselected d s) := by
  obtain ⟨hq, hr, hp⟩ := h
  refine ⟨?_, hr, hp⟩
  simpa [unselected, State.sched, State.setOrient] using hq

theorem noWork_modDrive {d : DriveNo} {f : Drive → Drive} {s : State} (hf : (f (s.drive d)).pending = (s.drive d).pending)
    (h : noWork d s) : noWork d (s.modDrive d f) := by
  obtain ⟨hq, hr, hp⟩ := h
  exact ⟨hq, hr, by simpa [hf] using hp⟩

theorem noWork_raiseDrive {d e : DriveNo} {b : ItemBody} {s : State} (h : noWork d s) :
    noWork d (raiseDrive e b s) := by
  simpa [noWork, State.sched, State.track, State.drive] using h

/-- Without queue and relocation there is nothing to select (R89). -/
theorem nextItem_noWork {d : DriveNo} {s : State} (h : noWork d s) (cur : Fin 604) : nextItem s d cur = none := by
  obtain ⟨hq, hr, -⟩ := h
  simp [nextItem, relocItem, hq, hr, nearest]

theorem select_noWork {d : DriveNo} {s : State} (h : noWork d s) : select d s = s := by
  unfold select
  simp only [nextItem_noWork h]
  (repeat' split) <;> rfl

/-- Without a Pending Policy none becomes current (R18). -/
theorem applyPolicy_noWork {d : DriveNo} {s : State} (join : List BufNo → State → State) (h : noWork d s) :
    applyPolicy join d s = s := by
  obtain ⟨-, -, hp⟩ := h
  simp [applyPolicy, hp]

theorem noWork_raiseReady {d e : DriveNo} {why : Option RecalReason} {s : State} (h : noWork d s) :
    noWork d (raiseReady e why s) := by
  unfold raiseReady
  split
  · exact noWork_raiseDrive h
  · exact h

theorem raiseReady_work (d : DriveNo) (why : Option RecalReason) (s : State) :
    (raiseReady d why s).work = s.work := by
  unfold raiseReady
  split <;> simp

/-- The state that a recalibrated arm with no fence and no work leaves, DRIVE-READY apart (R8). -/
def recalibratedIdle (d : DriveNo) (s : State) : State :=
  unselected d (s.modDrive d fun r => { r with arm := .idle, recalReason := none, indexSeen := true, position := none })

theorem noWork_recalibratedIdle {d : DriveNo} {s : State} (h : noWork d s) : noWork d (recalibratedIdle d s) :=
  noWork_unselected (noWork_modDrive rfl h)

/-- The arm, recalibrated, enters IDLE (R8): DRIVE-READY, no policy to become current, and a selection put off. -/
theorem recalibrated_noWork {d : DriveNo} {s : State} (hn : noWork d s) (hf : (s.fence d).flag = false)
    (hr : (s.fence d).releasePending = false) :
    recalibrated d s = (raiseReady d (s.drive d).recalReason (unselected d (s.modDrive d fun r =>
      { r with arm := .idle, recalReason := none }))).later [.select d] := by
  have hd : noWork d (unselected d (s.modDrive d fun r => { r with arm := .idle, recalReason := none })) :=
    noWork_unselected (noWork_modDrive rfl hn)
  unfold recalibrated idleReady
  simp only [hf, hr, Bool.false_eq_true, if_false, dropSelection_eq, State.setArm, unselected_modDrive,
    modDrive_modDrive]
  rw [applyPolicy_noWork _ (noWork_raiseReady hd)]

/-- The first INDEX after a good RECAL-DONE, with no fence and no work (R8). -/
theorem index_recalibrated {d : DriveNo} {cyl : Fin 604} {s : State} (hs : calm s)
    (ha : (s.drive d).arm = .recalibrating) (hc : (s.drive d).cyl = some cyl) (hf : (s.fence d).flag = false)
    (hr : (s.fence d).releasePending = false) (hn : noWork d s) :
    exec (.index d) s = .next (raiseReady d (s.drive d).recalReason (recalibratedIdle d s)) := by
  have hw : (raiseReady d (s.drive d).recalReason (recalibratedIdle d s)).work = [] := by
    rw [raiseReady_work]
    exact hs.2
  have hi : indexEvent d s =
      (raiseReady d (s.drive d).recalReason (recalibratedIdle d s)).later [.select d] := by
    simp only [indexEvent, ha, hc, Option.isSome_some, if_true]
    have hn' : noWork d (s.modDrive d fun r => { r with indexSeen := true, position := none }) :=
      noWork_modDrive rfl hn
    rw [recalibrated_noWork hn' hf hr]
    simp only [drive_modDrive, if_true, modDrive_modDrive]
    rfl
  exact take_single hs hi hw (select_noWork (noWork_raiseReady (noWork_recalibratedIdle hn))) hw

/-- A READY that finds the arm NOT_READY, with no late answer awaited (R7). -/
theorem ready_comingReady {d : DriveNo} {s : State} (hs : calm s) (ha : (s.drive d).arm = .notReady)
    (hl : (s.drive d).lateAnswer = false) :
    exec (.ready d) s = .next (recalibrates d .comingReady (s.modDrive d fun r => { r with ready := true })) := by
  change execReady d s = _
  unfold execReady
  exact take_effect hs (if_pos ⟨ha, hl⟩) hs.2

/-- Any other READY (R15; log 11). -/
theorem ready_only {d : DriveNo} {s : State} (hs : calm s)
    (h : (s.drive d).arm ≠ .notReady ∨ (s.drive d).lateAnswer = true) :
    exec (.ready d) s = .next (s.modDrive d fun r => { r with ready := true }) := by
  change execReady d s = _
  unfold execReady
  exact take_effect hs (if_neg fun ⟨ha, hl⟩ => by simp [ha, hl] at h) hs.2

theorem recalRunning_iff (s : State) (d : DriveNo) :
    recalRunning s d = true ↔ (s.drive d).arm = .recalibrating ∧ (s.drive d).cyl = none := by
  simp [recalRunning]

/-- A good RECAL-DONE (R8). -/
theorem recalDone_good {d : DriveNo} {s : State} (hs : calm s) (ha : (s.drive d).arm = .recalibrating)
    (hc : (s.drive d).cyl = none) :
    exec (.recalDone d true) s = .next (s.modDrive d fun r => { r with cyl := some 0, indexSeen := false }) := by
  change execRecalDone d true s = _
  unfold execRecalDone
  exact take_effect hs (by rw [if_pos ((recalRunning_iff s d).mpr ⟨ha, hc⟩), if_pos rfl]) hs.2

/-- Settles O47: READY by arm state, RECAL-DONE, and the INDEX that ends a recalibration with DRIVE-READY or without. -/
theorem driveComesReady : Obligations.DriveComesReady := by
  refine ⟨fun d s hs => ⟨ready_comingReady hs, ready_only hs⟩, fun d s hs ha =>
    ⟨recalDone_good hs ha, fun cyl hc hf hr hn => ⟨fun hy => ?_, fun hy => ?_⟩⟩⟩
  · rw [index_recalibrated hs ha hc hf hr hn, raiseReady, if_pos hy]
    rfl
  · rw [index_recalibrated hs ha hc hf hr hn, raiseReady, if_neg hy]
    rfl

end Sys2Proof.Machine.DriveString
end

section
namespace Sys2Proof.Machine.DriveString
open Sys2Proof.Machine.Laws

/-! SUPPORT. The loss of a drive without chains, relocation, buffers or suspect entries (R13, R14). -/

/-- A test that no context meets picks none. -/
theorem ctxsWhere_none {s : State} {p : Context → Bool} (h : ∀ c x, s.ctx c = some x → p x = false) :
    ctxsWhere s p = [] := by
  unfold ctxsWhere
  refine (congrArg (sortBy _) (List.filter_eq_nil_iff.mpr fun c _ => ?_)).trans rfl
  cases hx : s.ctx c with
  | none => simp
  | some x => simp [h c x hx]

theorem endSparesLow_clear {d : DriveNo} {s : State} (h : (s.track d).sparesLow = false) : endSparesLow d s = s := by
  simp [endSparesLow, h]

theorem removeSuspects_none {gone : Suspect → Bool} {s : State} (h : ∀ e ∈ s.suspects, gone e = false) :
    removeSuspects gone s = s := by
  have hn : s.suspects.any gone = false := List.any_eq_false.mpr (by simpa using h)
  simp [removeSuspects, hn]

/-- With no requester waiting there is nobody to serve (R123). -/
theorem serve_none {s : State} (h : s.bufWait = []) : serve s = s := by
  simp [serve, h, serveTimes]

theorem reclaimCheck_none {s : State} (h : s.bufWait = []) : reclaimCheck s = s := by
  simp [reclaimCheck, h]

theorem abandon_none {d : DriveNo} {s : State} (h : (s.track d).reloc = none) : abandon d s = s := by
  simp [abandon, h]

/-- With no requester waiting none leaves the Buffer Wait List. -/
theorem unlist_none {gone : Waiter → Bool} {s : State} (h : s.bufWait = []) : unlist gone s = s := by
  simp only [unlist, h, List.filter_nil]
  rw [← h]

/-- The Drive Record of a drive that has been lost (R13). -/
def lostRecord (ready late : Bool) (r : Drive) : Drive :=
  { r with ready := ready, lateAnswer := late, arm := .notReady, cyl := none, seekTarget := none,
           recalReason := none, indexSeen := false, position := none }

/-- The pack of a drive without buffers or suspect entries is lost: map, spares and queue (R14). -/
theorem losePack_bare {d : DriveNo} {w : Bool} {s : State} (h : bare d s) :
    losePack d w s = (s.modTracks d fun _ => Tracks.powerOn).modSched d fun q => { q with queue := [] } := by
  obtain ⟨-, -, hl, hb, he, hw⟩ := h
  have hs : removeSuspects (fun e => e.drive == d) (s.modTracks d fun _ => Tracks.powerOn) =
      s.modTracks d fun _ => Tracks.powerOn := removeSuspects_none (by simpa using he)
  have hn : (allBufs.filter fun b => ((s.modTracks d fun _ => Tracks.powerOn).buffer b).ofDrive d) = [] :=
    List.filter_eq_nil_iff.mpr fun b _ => by simpa [State.buffer] using hb b
  unfold losePack
  simp only [endSparesLow_clear hl, hs, hn, each_nil]
  rw [serve_none (by exact hw), reclaimCheck_none (by exact hw)]
  split <;> rfl

/-- The record and the arm of a lost drive, before its pack goes (R13). -/
def dropped (d : DriveNo) (ready late : Bool) (s : State) : State :=
  dropSelection d (clearGrant d (s.modDrive d (lostRecord ready late)))

/-- What the loss of a drive's record leaves alone. -/
@[simp] theorem dropped_keeps (d : DriveNo) (ready late : Bool) (s : State) :
    (dropped d ready late s).contexts = s.contexts ∧ (dropped d ready late s).tracks = s.tracks ∧
    (dropped d ready late s).buffers = s.buffers ∧ (dropped d ready late s).suspects = s.suspects ∧
    (dropped d ready late s).bufWait = s.bufWait ∧ (dropped d ready late s).work = s.work := by
  simp [dropped, dropSelection, cancelBooking, clearGrant]

theorem dropped_scheds (d : DriveNo) (ready late : Bool) (s : State) :
    (dropped d ready late s).scheds = change s.scheds d fun q => { q with selection := none } := by
  simp [dropped, dropSelection, cancelBooking, clearGrant]

theorem bare_dropped {d : DriveNo} {ready late : Bool} {s : State} (h : bare d s) :
    bare d (dropped d ready late s) := by
  simpa [bare, State.ctx, State.track, State.buffer] using h

/-- A bare drive is lost: its record and the arm's work go, and the pack is put off (R13). -/
theorem dropDrive_bare {d : DriveNo} {ready late : Bool} {s : State} (h : bare d s) :
    dropDrive d ready late s =
      (dropped d ready late s).later [.abandon d, .losePack d ((s.drive d).arm == .fenced)] := by
  obtain ⟨hc, -, -, -, -, hw⟩ := id h
  have hn : ∀ p : Context → Bool, ctxsWhere s (fun x => x.drive == d && p x) = [] := fun p =>
    ctxsWhere_none fun c x hx => by simp [hc c x hx]
  have hended := hn fun x => !x.leaves && x.stop != .discard
  have hfreed := hn fun x => !x.leaves && x.stop == .discard
  have hunlist : unlist (fun w => w.drive == d) (dropped d ready late s) = dropped d ready late s :=
    unlist_none (by simpa using hw)
  unfold dropDrive
  simp only [Bool.and_assoc, hended, hfreed, each_nil, List.map_nil, List.nil_append]
  exact congrArg (State.later _) hunlist

theorem armCleared_modDrive (d : DriveNo) (f : Drive → Drive) (s : State) :
    (armCleared d s).modDrive d f = dropSelection d (clearGrant d (s.modDrive d f)) := rfl

/-- A lost drive whose pack has gone with its queue is out of service (R13, R14). -/
theorem outOfService_eq (d : DriveNo) (ready late : Bool) (s : State) :
    outOfService d ready late s =
      ((dropped d ready late s).modTracks d fun _ => Tracks.powerOn).modSched d fun q => { q with queue := [] } := by
  have hq : change s.scheds d (fun q => { q with queue := [], selection := none }) =
      change (dropped d ready late s).scheds d fun q => { q with queue := [] } := by
    rw [dropped_scheds, change_change]
  have hx : (armCleared d s).modDrive d (lostRecord ready late) = dropped d ready late s := armCleared_modDrive d _ s
  unfold outOfService
  rw [hq]
  change ({ (armCleared d s).modDrive d (lostRecord ready late) with scheds := _, tracks := _ } : State) = _
  rw [hx]
  rfl

/-- A bare drive goes out of service (R13, R14). -/
theorem take_dropDrive {d : DriveNo} {ready late : Bool} {s : State} {f : State → State} (hs : calm s)
    (hb : bare d s) (hf : f s = dropDrive d ready late s) : take s f = .next (outOfService d ready late s) := by
  have hu : bare d (dropped d ready late s) := bare_dropped hb
  have hw : (dropped d ready late s).work = [] := by simpa using hs.2
  have hv : (outOfService d ready late s).work = [] := by
    rw [outOfService_eq]
    simpa using hs.2
  have hl := losePack_bare (w := (s.drive d).arm == .fenced) hu
  rw [← outOfService_eq] at hl
  exact take_pair hs (hf.trans (dropDrive_bare hb)) hw (abandon_none hu.2.1) hw hl hv

/-- Settles O48: the arm state decides whether the drive is lost, by `take_dropDrive`, or only its flags change. -/
theorem driveLost : Obligations.DriveLost := by
  intro d s hs
  refine ⟨fun ha => ?_, fun ha hb => ?_, fun ha hc hb => ⟨?_, ?_⟩, fun hn => ⟨?_, fun good => ?_⟩⟩
  · change execNotReady d s = _
    unfold execNotReady
    exact take_effect hs (if_pos ha) hs.2
  · change execNotReady d s = _
    unfold execNotReady
    exact take_dropDrive hs hb (if_neg ha)
  · change execRecalDone d false s = _
    unfold execRecalDone
    exact take_dropDrive hs hb (if_pos ((recalRunning_iff s d).mpr ⟨ha, hc⟩))
  · change execRecalibrateTimeout d s = _
    unfold execRecalibrateTimeout
    exact take_dropDrive hs hb (if_pos ((recalRunning_iff s d).mpr ⟨ha, hc⟩))
  · change execRecalibrateTimeout d s = _
    unfold execRecalibrateTimeout
    exact take_effect hs (if_neg (mt (recalRunning_iff s d).mp hn)) hs.2
  · change execRecalDone d good s = _
    unfold execRecalDone
    exact take_effect hs (if_neg (mt (recalRunning_iff s d).mp hn)) hs.2

end Sys2Proof.Machine.DriveString
end

section
namespace Sys2Proof.Machine.DriveString
open Sys2Proof.Machine.Laws

/-! SUPPORT. The end of a seek by what the arm serves (R11, R12), and the ending of a chain whose buffer another chain
pins too (R37, R121). -/

/-- The drive has no seek in flight that the arm awaits (R11). -/
theorem seekOutcome_none {d : DriveNo} {good : Bool} {s : State}
    (h : (s.drive d).seekTarget = none ∨ ((s.drive d).arm ≠ .seeking ∧ (s.drive d).arm ≠ .fenced)) :
    seekOutcome d good s = s := by
  unfold seekOutcome
  split
  · next ha ht => simp [ha, ht] at h
  · next ha ht => simp [ha, ht] at h
  · rfl

theorem seekOutcome_fenced {d : DriveNo} {good : Bool} {cyl : Fin 604} {s : State} (ha : (s.drive d).arm = .fenced)
    (ht : (s.drive d).seekTarget = some cyl) :
    seekOutcome d good s =
      s.modDrive d fun r => { r with cyl := if good then some cyl else none, seekTarget := none } := by
  simp [seekOutcome, ha, ht]

theorem seekOutcome_good {d : DriveNo} {cyl : Fin 604} {s : State} (ha : (s.drive d).arm = .seeking)
    (ht : (s.drive d).seekTarget = some cyl) :
    seekOutcome d true s = arrived d (s.modDrive d fun r => { r with cyl := some cyl, seekTarget := none }) := by
  simp [seekOutcome, ha, ht]

theorem seekOutcome_failed {d : DriveNo} {cyl : Fin 604} {s : State} (ha : (s.drive d).arm = .seeking)
    (ht : (s.drive d).seekTarget = some cyl) : seekOutcome d false s = seekCheck d s := by
  simp [seekOutcome, ha, ht]

/-- The recalibration that a seek check starts (R12). -/
def seekFailed (d : DriveNo) (s : State) : State :=
  recalibrates d .seekCheck (unselected d (s.modDrive d fun r => { r with seekTarget := none }))

/-- What the recalibration of a seek check leaves alone. -/
@[simp] theorem seekFailed_keeps (d : DriveNo) (s : State) :
    (seekFailed d s).contexts = s.contexts ∧ (seekFailed d s).work = s.work := by
  simp [seekFailed, recalibrates, unselected]

theorem seekCheck_detached {d : DriveNo} {k : Selection} {s : State} (hk : (s.sched d).selection = some k)
    (hd : k.detached = true) : seekCheck d s = seekFailed d s := by
  simp only [seekCheck, hk, hd, if_true]
  rfl

theorem seekCheck_step {d : DriveNo} {k : Selection} {c : CtxNo} {x : Context} {s : State}
    (hk : (s.sched d).selection = some k) (hd : k.detached = false) (hw : k.work = .step c) (hx : s.ctx c = some x) :
    seekCheck d s = endChain c .seekCheck (some (seekIndex x)) [] id (seekFailed d s) := by
  simp only [seekCheck, hk, hd, hw, hx, Bool.false_eq_true, if_false]
  rfl

theorem arrived_detached {d : DriveNo} {k : Selection} {s : State} (hk : (s.sched d).selection = some k)
    (hd : k.detached = true) : arrived d s = enterIdle d s := by
  simp [arrived, hk, hd]

theorem arrived_step {d : DriveNo} {k : Selection} {c : CtxNo} {s : State} (hk : (s.sched d).selection = some k)
    (hd : k.detached = false) (hw : k.work = .step c) : arrived d s = s.later [.walk c] := by
  simp [arrived, hk, hd, hw]

/-- An arm without work enters IDLE, and a selection is put off (R87). -/
theorem enterIdle_noWork {d : DriveNo} {cyl : Fin 604} {s : State} (hc : (s.drive d).cyl = some cyl)
    (hn : noWork d s) :
    enterIdle d s = (unselected d (s.modDrive d fun r => { r with arm := .idle })).later [.select d] := by
  have hd : noWork d (unselected d (s.modDrive d fun r => { r with arm := .idle })) :=
    noWork_unselected (noWork_modDrive rfl hn)
  simp only [enterIdle, hc, dropSelection_eq, State.setArm, unselected_modDrive]
  rw [applyPolicy_noWork _ hd]

theorem seekOutcome_good_detached {d : DriveNo} {cyl : Fin 604} {k : Selection} {s : State}
    (ha : (s.drive d).arm = .seeking) (ht : (s.drive d).seekTarget = some cyl)
    (hk : (s.sched d).selection = some k) (hd : k.detached = true) (hn : noWork d s) :
    seekOutcome d true s = (unselected d (s.modDrive d fun r =>
      { r with arm := .idle, cyl := some cyl, seekTarget := none })).later [.select d] := by
  have hn' : noWork d (s.modDrive d fun r => { r with cyl := some cyl, seekTarget := none }) := noWork_modDrive rfl hn
  rw [seekOutcome_good ha ht, arrived_detached (by exact hk) hd, enterIdle_noWork (cyl := cyl) (by simp) hn',
    modDrive_modDrive]

/-! A chain that ends. -/

theorem put_put {α : Type} {n : Nat} (v : Vector α n) (i : Fin n) (x y : α) : put (put v i x) i y = put v i y := by
  simp [put]

theorem ctx_setCtx (c k : CtxNo) (x : Option Context) (s : State) :
    (s.setCtx c x).ctx k = if c = k then x else s.ctx k := get_put s.contexts c k x

theorem setCtx_setCtx (c : CtxNo) (x y : Option Context) (s : State) : (s.setCtx c x).setCtx c y = s.setCtx c y := by
  simp only [State.setCtx, put_put]

/-- A context that is there is changed. -/
theorem modCtx_some {c : CtxNo} {x : Context} {f : Context → Context} {s : State} (hx : s.ctx c = some x) :
    s.modCtx c f = s.setCtx c (some (f x)) := by
  have hg : s.contexts.get c = some x := hx
  simp only [State.modCtx, State.setCtx, change, hg, Option.map_some]

/-- A buffer that some chain names is pinned (R118). -/
theorem pinned_of_ctx {k : CtxNo} {y : Context} {b : BufNo} {s : State} (hy : s.ctx k = some y)
    (hb : y.buffer = some b) : pinned s b = true := by
  have hk : k ∈ allCtxs := by
    fin_cases k <;> decide
  have hp : 0 < pins s b := List.length_pos_of_mem (List.mem_filter.mpr ⟨hk, by simp [hy, hb]⟩)
  simp [pinned, hp]

theorem unpin_none {c : CtxNo} {y : Context} {s : State} (hy : s.ctx c = some y) (hb : y.buffer = none) :
    unpin c s = s := by
  simp [unpin, hy, hb]

/-- A pin that is not the buffer's last goes without further effect (R120, R121). -/
theorem unpin_shared {c k : CtxNo} {y z : Context} {b : BufNo} {s : State} (hy : s.ctx c = some y)
    (hb : y.buffer = some b) (hk : k ≠ c) (hz : s.ctx k = some z) (hzb : z.buffer = some b) :
    unpin c s = touch b (s.setCtx c (some { y with buffer := none })) := by
  have hz' : (touch b (s.setCtx c (some { y with buffer := none }))).ctx k = some z := by
    change (s.setCtx c (some { y with buffer := none })).ctx k = some z
    rw [ctx_setCtx, if_neg hk.symm, hz]
  simp [unpin, hy, hb, modCtx_some hy, afterUnpin, pinned_of_ctx hz' hzb]

/-- Steps 1 and 2 of R37 for a chain that holds the arm, whose course the caller gives. -/
theorem beginEnding_active {c : CtxNo} {x : Context} {s : State} (cond : Condition) (entry : Option Nat)
    (sectors : List SectorNo) (hx : s.ctx c = some x) (ha : x.state = .active) :
    beginEnding c cond entry sectors id s =
      leaving c x ⟨cond, if cond = .complete then none else some (entry.getD x.cur), sectors⟩ s := by
  simp only [beginEnding, hx, ha, withdrawFrom, if_true, id, modCtx_some hx]
  rfl

theorem ctx_leaving (c k : CtxNo) (x : Context) (e : Ending) (s : State) :
    (leaving c x e s).ctx k =
      if c = k then some { x with state := .waitStore .leaving, ending := some e } else s.ctx k :=
  get_put s.contexts c k _

theorem pinnedByOther_leaving {c : CtxNo} {x : Context} {e : Ending} {s : State} (h : pinnedByOther c x s) :
    pinnedByOther c x (leaving c x e s) := by
  intro b hb
  obtain ⟨k, y, hk, hy, hyb⟩ := h b hb
  exact ⟨k, y, hk, by rw [ctx_leaving, if_neg hk.symm, hy], hyb⟩

theorem raiseEnding_some {c : CtxNo} {y : Context} {s : State} (hy : s.ctx c = some y) :
    raiseEnding c s = raisesEnding c y (s.setCtx c (some { y with state := .ending })) := by
  cases hl : y.link <;> simp [raiseEnding, raisesEnding, hy, hl, modCtx_some hy]

/-- Steps 4 and 5 of R37 for a chain that shares its buffer: its pin, its ENDING. -/
theorem raiseEnding_unpin {c : CtxNo} {x : Context} {e : Ending} {s : State}
    (hx : s.ctx c = some { x with state := .waitStore .leaving, ending := some e }) (hp : pinnedByOther c x s) :
    raiseEnding c (unpin c s) = ends c x e s := by
  cases hb : x.buffer with
  | none =>
    rw [unpin_none hx hb, raiseEnding_some hx]
    simp only [ends, hb]
    rfl
  | some b =>
    obtain ⟨k, z, hk, hz, hzb⟩ := hp b hb
    have hc : (touch b (s.setCtx c (some { x with
        state := .waitStore .leaving, ending := some e, buffer := none }))).ctx c = _ :=
      (ctx_setCtx c c _ s).trans (if_pos rfl)
    rw [unpin_shared hx hb hk hz hzb, raiseEnding_some hc]
    simp only [ends, hb, State.setCtx, touch, put_put]
    rfl

theorem raisesEnding_work (c : CtxNo) (x : Context) (s : State) : (raisesEnding c x s).work = s.work := by
  unfold raisesEnding
  split <;> simp

theorem unpin_shared_work {c : CtxNo} {x y : Context} {s : State} (hy : s.ctx c = some y) (hb : y.buffer = x.buffer)
    (hp : pinnedByOther c x s) : (unpin c s).work = s.work := by
  cases hxb : x.buffer with
  | none => rw [unpin_none hy (hb.trans hxb)]
  | some b =>
    obtain ⟨k, z, hk, hz, hzb⟩ := hp b hxb
    rw [unpin_shared hy (hb.trans hxb) hk hz hzb]
    rfl

/-- A chain that holds the arm ends by a command, its buffer pinned by another chain too (R37). -/
theorem take_endChain {c : CtxNo} {x : Context} {cond : Condition} {i : Nat} {s u : State} {f : State → State}
    (hs : calm s) (hu : u.work = []) (hx : u.ctx c = some x) (ha : x.state = .active) (hp : pinnedByOther c x u)
    (hcond : cond ≠ .complete) (hf : f s = endChain c cond (some i) [] id u) :
    take s f = .next (ends c x ⟨cond, some i, []⟩ (leaving c x ⟨cond, some i, []⟩ u)) := by
  have hl : x.leaves = false := by simp [Context.leaves, ha]
  have hv := (ctx_leaving c c x ⟨cond, some i, []⟩ u).trans (if_pos rfl)
  have hq := pinnedByOther_leaving (e := ⟨cond, some i, []⟩) hp
  have hb : beginEnding c cond (some i) [] id u = leaving c x ⟨cond, some i, []⟩ u := by
    simp [beginEnding_active cond (some i) [] hx ha, hcond]
  rw [endChain_of_live _ _ _ _ hx hl, hb] at hf
  refine take_pair hs hf hu rfl ((unpin_shared_work hv rfl hq).trans hu) (raiseEnding_unpin hv hq) ?_
  exact (raisesEnding_work _ _ _).trans hu

/-- A failed seek of an arm that serves nothing (R12). -/
theorem take_seekFailed {d : DriveNo} {cyl : Fin 604} {k : Selection} {s : State} (hs : calm s)
    (ha : (s.drive d).arm = .seeking) (ht : (s.drive d).seekTarget = some cyl)
    (hk : (s.sched d).selection = some k) (hd : k.detached = true) :
    take s (seekOutcome d false) = .next (seekFailed d s) :=
  take_effect hs ((seekOutcome_failed ha ht).trans (seekCheck_detached hk hd)) (by simpa using hs.2)

/-- A failed seek of a chain (R12, R37). -/
theorem take_seekFailed_step {d : DriveNo} {cyl : Fin 604} {k : Selection} {c : CtxNo} {x : Context} {s : State}
    (hs : calm s) (ha : (s.drive d).arm = .seeking) (ht : (s.drive d).seekTarget = some cyl)
    (hk : (s.sched d).selection = some k) (hd : k.detached = false) (hw : k.work = .step c) (hx : s.ctx c = some x)
    (hxa : x.state = .active) (hp : pinnedByOther c x s) :
    take s (seekOutcome d false) = .next (ends c x ⟨.seekCheck, some (seekIndex x), []⟩
      (leaving c x ⟨.seekCheck, some (seekIndex x), []⟩ (seekFailed d s))) := by
  have hu : (seekFailed d s).work = [] := by simpa using hs.2
  have hctx : ∀ k, (seekFailed d s).ctx k = s.ctx k := fun k => by simp [State.ctx]
  have hq : pinnedByOther c x (seekFailed d s) := by simpa [pinnedByOther, hctx] using hp
  exact take_endChain hs hu ((hctx c).trans hx) hxa hq (by decide)
    ((seekOutcome_failed ha ht).trans (seekCheck_step hk hd hw hx))

/-- A good seek of an arm that serves nothing, with no work (R11, R87). -/
theorem take_seekGood_detached {d : DriveNo} {cyl : Fin 604} {k : Selection} {s : State} (hs : calm s)
    (ha : (s.drive d).arm = .seeking) (ht : (s.drive d).seekTarget = some cyl)
    (hk : (s.sched d).selection = some k) (hd : k.detached = true) (hn : noWork d s) :
    take s (seekOutcome d true) = .next (unselected d (s.modDrive d fun r =>
      { r with arm := .idle, cyl := some cyl, seekTarget := none })) := by
  have hi : noWork d (unselected d (s.modDrive d fun r =>
      { r with arm := .idle, cyl := some cyl, seekTarget := none })) := noWork_unselected (noWork_modDrive rfl hn)
  have hw : (unselected d (s.modDrive d fun r =>
      { r with arm := .idle, cyl := some cyl, seekTarget := none })).work = [] := by
    simpa [unselected] using hs.2
  exact take_single hs (seekOutcome_good_detached ha ht hk hd hn) hw (select_noWork hi) hw

/-- A good seek of a chain starts its entry walk (R11). -/
theorem take_seekGood_step {d : DriveNo} {cyl : Fin 604} {k : Selection} {c : CtxNo} {s : State} (hs : calm s)
    (ha : (s.drive d).arm = .seeking) (ht : (s.drive d).seekTarget = some cyl)
    (hk : (s.sched d).selection = some k) (hd : k.detached = false) (hw : k.work = .step c) :
    take s (seekOutcome d true) = .next (settle ((s.modDrive d fun r =>
      { r with cyl := some cyl, seekTarget := none }).later [.walk c])) := by
  rw [take_calm _ _ hs.1 hs.2, seekOutcome_good ha ht, arrived_step (by exact hk) hd hw]

/-- Settles O50: the outcome by the arm state and by what the arm serves; SEEK_TIMEOUT is a failed SEEK_DONE. -/
theorem seekOutcome : Obligations.SeekOutcome := by
  refine ⟨fun d s hs => ⟨fun hn => ⟨?_, fun good => ?_⟩, fun cyl ht => ⟨fun ha => ⟨?_, ?_, ?_⟩,
    fun k ha hk hd => ⟨?_, ?_, fun hn => ?_⟩, fun k c ha hk hd hw => ?_⟩⟩,
    fun d cyl k c x s hs ha ht hk hd hw hx hxa hp => ⟨?_, ?_⟩⟩
  · exact take_effect hs (seekOutcome_none hn) hs.2
  · exact take_effect hs (seekOutcome_none hn) hs.2
  · exact take_effect hs (seekOutcome_fenced ha ht) hs.2
  · exact take_effect hs (seekOutcome_fenced ha ht) hs.2
  · exact take_effect hs (seekOutcome_fenced ha ht) hs.2
  · exact take_seekFailed hs ha ht hk hd
  · exact take_seekFailed hs ha ht hk hd
  · exact take_seekGood_detached hs ha ht hk hd hn
  · exact take_seekGood_step hs ha ht hk hd hw
  · exact take_seekFailed_step hs ha ht hk hd hw hx hxa hp
  · exact take_seekFailed_step hs ha ht hk hd hw hx hxa hp

end Sys2Proof.Machine.DriveString
end

section
namespace Sys2Proof.Machine.DriveString
open Sys2Proof.Machine.Laws

/-! SUPPORT. An accepted POLICY-WRITE (R18, R19). -/

/-- A management frame on an IDLE link of FULL authority whose operation accepts without data (R193). -/
theorem manage_accepts {l : LinkNo} {tag code : Byte} {needsFull : Bool} {verdict : State → Verdict}
    {early : State → State} {s : State} (h : atFull l s) (hv : verdict (floorZero l s) = accept early []) :
    manage l tag code needsFull true verdict s = (early (accepted l code s)).later [.choose l] := by
  obtain ⟨⟨-, hp⟩, hf⟩ := h
  have hc : checkedVerdict (floorZero l s) l needsFull true verdict = accept early [] := by
    have hf' : ((floorZero l s).auth.get l).full = true := hf
    simp [checkedVerdict, hf', hv]
  simp only [manage, hp]
  change ((checkedVerdict (floorZero l s) l needsFull true verdict).early _).later _ = _
  rw [show setFloor l 0 s = floorZero l s from rfl, hc]
  rfl

/-- A management frame that is accepted without data, and hands on no work (R193, R54). -/
theorem take_accepts {l : LinkNo} {tag code : Byte} {needsFull : Bool} {verdict : State → Verdict}
    {early : State → State} {s u : State} (h : atFull l s) (hv : verdict (floorZero l s) = accept early [])
    (hu : early (accepted l code s) = u) (hw : u.work = []) :
    take s (manage l tag code needsFull true verdict) = .next (choose l u) := by
  subst hu
  exact take_single h.1.1 (manage_accepts h hv) hw rfl (by simpa using hw)

theorem readDrive_byteOf (d : DriveNo) : readDrive (byteOf d.val) = some d := by
  have hb : (byteOf d.val).toNat = d.val := by
    simp only [byteOf, BitVec.toNat_ofNat]
    omega
  simp [readDrive, hb]

/-- The fence test of a drive that is fenced, or has nothing to fence it (R179). -/
theorem fenceTest_none {d : DriveNo} {s : State}
    (h : (s.fence d).flag = false → selectedCause s d = false ∧ (s.fence d).forced = false) : fenceTest d s = s := by
  unfold fenceTest
  refine if_neg fun ⟨hf, hc⟩ => ?_
  obtain ⟨hs, hfo⟩ := h hf
  simp [hs, hfo] at hc

/-- The Auto-Release test of a drive that is not fenced, or whose fence stays (R187). -/
theorem autoReleaseTest_none {d : DriveNo} {s : State}
    (h : (s.fence d).flag = true →
      (s.policy d).autoRelease = false ∨ selectedCause s d = true ∨ (s.fence d).forced = true) :
    autoReleaseTest d s = s := by
  unfold autoReleaseTest
  refine if_neg fun ⟨hf, ha, hs, hfo⟩ => ?_
  simpa [ha, hs, hfo] using h hf

/-- A policy becomes current that neither changes the Spare Low Mark nor turns DEFERRED into THROUGH (R18, R19). -/
theorem applyPolicy_plain {join : List BufNo → State → State} {d : DriveNo} {p : Policy} {s : State}
    (hp : (s.drive d).pending = some p) (hm : p.spareLowMark = (s.policy d).spareLowMark)
    (hw : ¬(p.writeMode = .through ∧ (s.policy d).writeMode = .deferred)) :
    applyPolicy join d s = s.modDrive d fun r => { r with policy := p, pending := none } := by
  simp only [applyPolicy, hp, if_neg hw, if_pos hm]

/-- The Fence Sources of a policy that has been written are in force at once (R18). -/
def withSources (d : DriveNo) (p : Policy) (s : State) : State :=
  s.modDrive d fun r => { r with policy := { r.policy with fenceSources := p.fenceSources } }

theorem policy_withSources (d : DriveNo) (p : Policy) (s : State) :
    (withSources d p s).policy d = { s.policy d with fenceSources := p.fenceSources } := by
  simp [withSources, State.policy]

theorem fence_withSources (d : DriveNo) (p : Policy) (s : State) : (withSources d p s).fence d = s.fence d := rfl

/-- The Fence Sources written neither fence the drive nor release its fence. -/
def fenceStays (d : DriveNo) (p : Policy) (s : State) : Prop :=
  ((s.fence d).flag = true →
    (s.policy d).autoRelease = false ∨ (s.fence d).causes.meets p.fenceSources = true ∨ (s.fence d).forced = true) ∧
  ((s.fence d).flag = false → (s.fence d).causes.meets p.fenceSources = false ∧ (s.fence d).forced = false)

/-- The fence evaluated again with the Fence Sources written changes nothing (R18, R179, R187). -/
theorem fenceTests_withSources {d : DriveNo} {p : Policy} {s : State} (h : fenceStays d p s) :
    autoReleaseTest d (fenceTest d (withSources d p s)) = withSources d p s := by
  obtain ⟨hset, hclear⟩ := h
  have hc : selectedCause (withSources d p s) d = (s.fence d).causes.meets p.fenceSources := by
    rw [selectedCause, policy_withSources, fence_withSources]
  rw [fenceTest_none, autoReleaseTest_none]
  · rw [hc, fence_withSources, policy_withSources]
    exact hset
  · rw [hc, fence_withSources]
    exact hclear

/-- A policy that has been written awaits the arm's entry to IDLE, its Fence Sources in force (R18). -/
def policyPending (d : DriveNo) (p : Policy) (s : State) : State :=
  s.modDrive d fun r => { r with policy := { r.policy with fenceSources := p.fenceSources }, pending := some p }

theorem writePolicy_eq {d : DriveNo} {p : Policy} {s : State} (h : fenceStays d p s) :
    writePolicy d p s =
      if (s.drive d).arm = .idle then applyPolicy joinInTurn d (policyPending d p s) else policyPending d p s := by
  have hw := fenceTests_withSources h
  unfold withSources at hw
  simp only [writePolicy, hw, modDrive_modDrive, drive_modDrive, if_true]
  rfl

theorem writePolicy_idle {d : DriveNo} {p : Policy} {s : State} (h : fenceStays d p s) (ha : (s.drive d).arm = .idle)
    (hm : p.spareLowMark = (s.policy d).spareLowMark)
    (hw : ¬(p.writeMode = .through ∧ (s.policy d).writeMode = .deferred)) :
    writePolicy d p s = s.modDrive d fun r => { r with policy := p, pending := none } := by
  have hp : (policyPending d p s).policy d = { s.policy d with fenceSources := p.fenceSources } := by
    simp [policyPending, State.policy]
  rw [writePolicy_eq h, if_pos ha, applyPolicy_plain (p := p) (by simp [policyPending]) (by rw [hp]; exact hm)
    (by rw [hp]; exact hw), policyPending, modDrive_modDrive]

/-- A POLICY-WRITE of FULL authority on an IDLE link with a readable policy (R18, R193). -/
theorem exec_policyWrite {l : LinkNo} {d : DriveNo} {tag : Byte} {fields : List Byte} {p : Policy} {s u : State}
    (h : atFull l s) (hl : fields.length = 12) (hp : readPolicy fields = some p)
    (hu : writePolicy d p (accepted l 9#8 s) = u) (hw : u.work = []) :
    exec (.policyWrite l tag (byteOf d.val :: fields)) s = .next (choose l u) := by
  change execPolicyWrite l tag (byteOf d.val :: fields) s = _
  have hlen : ((byteOf d.val :: fields).length == 13) = true := by simp [hl]
  unfold execPolicyWrite
  rw [hlen]
  exact take_accepts h (by simp [readDrive_byteOf, hp]) hu hw

/-- Settles O36: the fence stays as it is, and the arm's state decides whether the policy is current at once. -/
theorem policyWrite : Obligations.PolicyWrite := by
  intro l d tag fields p s hs hlen hp hset hclear
  have hf : fenceStays d p (accepted l 9#8 s) := ⟨hset, hclear⟩
  refine ⟨fun ha => ?_, fun ha hm hw => ?_⟩
  · exact exec_policyWrite hs hlen hp ((writePolicy_eq hf).trans (if_neg ha)) hs.1.1.2
  · exact exec_policyWrite hs hlen hp (writePolicy_idle hf ha hm hw) hs.1.1.2

end Sys2Proof.Machine.DriveString
end

section
namespace Sys2Proof.Machine.ChainControl
open Sys2Proof.Machine.Laws Sys2Proof.Machine.DriveString

/-! SUPPORT. A command and its internal work, where one piece hands on further pieces; and the lowest of a list that
meets a test. -/

theorem later_nil (s : State) : s.later [] = s := by
  simp only [State.later, List.append_nil]

theorem later_later (ts us : List Task) (s : State) : (s.later ts).later us = s.later (ts ++ us) := by
  simp only [State.later, List.append_assoc]

/-- A piece of work that hands on others, which are done before the pieces after it. -/
theorem drain_hands {n : Nat} {k : Task} {ts ks : List Task} {s u t : State} (hk : runTask k s = u.later ts)
    (hu : u.work = []) (h : drain n (ts ++ ks) u = t) : drain (n + 1) (k :: ks) s = t := by
  have hw : ({ u.later ts with work := [] } : State) = u := by
    rw [← hu]
    rfl
  rwa [drain_cons, hk, hw, later_work, hu, List.nil_append]

/-- A piece of work that hands on nothing. -/
theorem drain_does {n : Nat} {k : Task} {ks : List Task} {s u t : State} (hk : runTask k s = u) (hu : u.work = [])
    (h : drain n ks u = t) : drain (n + 1) (k :: ks) s = t := by
  subst hk
  rwa [drain_quiet n k ks s hu]

/-- The work put off in a state without work is a run of it. -/
theorem settle_later {s : State} (ts : List Task) (h : s.work = []) : settle (s.later ts) = drain 4096 ts s := by
  have hw : ({ s.later ts with work := [] } : State) = s := by
    rw [← h]
    rfl
  unfold settle
  rw [hw, later_work, h, List.nil_append]
  rfl

/-- A command taken between two others whose effect puts off some work. -/
theorem take_later {s u : State} {f : State → State} {ts : List Task} (hs : calm s) (hf : f s = u.later ts)
    (hu : u.work = []) : take s f = .next (drain 4096 ts u) := by
  obtain ⟨hc, hw⟩ := hs
  rw [take_calm s f hc hw, hf, settle_later ts hu]

/-! What Presentation Control leaves alone. -/

/-- What touches only ports, item sets and what is sent leaves the work put off alone. -/
theorem work_of_behind {s t : State} (h : Laws.behind t = Laws.behind s) : t.work = s.work := by
  simp only [Laws.behind, Prod.mk.injEq] at h
  tauto

/-- What touches only ports, item sets and what is sent leaves the Context Table alone. -/
theorem contexts_of_behind {s t : State} (h : Laws.behind t = Laws.behind s) : t.contexts = s.contexts := by
  simp only [Laws.behind, Prod.mk.injEq] at h
  tauto

theorem choose_work {l : LinkNo} {s : State} (h : s.work = []) : (choose l s).work = [] :=
  (work_of_behind (behind_choose l s)).trans h

theorem goIdle_work {l : LinkNo} {s : State} (h : s.work = []) : (goIdle l s).work = [] :=
  (work_of_behind (behind_goIdle l s)).trans h

theorem raise_work {l : LinkNo} {b : ItemBody} {s : State} (h : s.work = []) : (raise l b s).work = [] :=
  (work_of_behind (behind_raise l b s)).trans h

theorem raiseOn_work {ls : List LinkNo} {b : ItemBody} {s : State} (h : s.work = []) : (raiseOn ls b s).work = [] :=
  (work_of_behind (behind_raiseOn ls b s)).trans h

theorem withdraw_work {l : LinkNo} {b : ItemBody} {s : State} (h : s.work = []) : (withdraw l b s).work = [] :=
  (work_of_behind (behind_withdraw l b s)).trans h

/-- A link's choice is the last piece of work (R54). -/
theorem drain_choose {n : Nat} {l : LinkNo} {s : State} (hs : s.work = []) :
    drain (n + 2) [.choose l] s = choose l s :=
  drain_does (u := choose l s) rfl (choose_work hs) rfl

/-! The lowest of a list that meets a test. -/

/-- The first element found in a rising list is the lowest that meets the test. -/
theorem find?_lowest {n : Nat} {p : Fin n → Bool} {x : Fin n} {xs : List (Fin n)} (hxs : xs.Pairwise (· < ·))
    (hm : x ∈ xs) (hp : p x = true) (hl : ∀ k, k < x → p k = false) : xs.find? p = some x := by
  induction xs with
  | nil => simp at hm
  | cons y ys ih =>
    obtain ⟨hy, hys⟩ := List.pairwise_cons.mp hxs
    rcases List.mem_cons.mp hm with rfl | hm
    · exact List.find?_cons_of_pos hp
    · rw [List.find?_cons_of_neg (by simp [hl y (hy x hm)]), ih hys hm]

theorem mem_allCtxs (c : CtxNo) : c ∈ allCtxs := by
  fin_cases c <;> decide

theorem mem_allBufs (b : BufNo) : b ∈ allBufs := by
  fin_cases b <;> decide

theorem mem_allLinks (l : LinkNo) : l ∈ allLinks := by
  fin_cases l <;> decide

/-- The lowest-numbered context that meets a test. -/
theorem find?_allCtxs {p : CtxNo → Bool} {c : CtxNo} (hp : p c = true) (hl : ∀ k, k < c → p k = false) :
    allCtxs.find? p = some c :=
  find?_lowest (by decide) (mem_allCtxs c) hp hl

/-- The lowest-numbered buffer that meets a test. -/
theorem find?_allBufs {p : BufNo → Bool} {b : BufNo} (hp : p b = true) (hl : ∀ k, k < b → p k = false) :
    allBufs.find? p = some b :=
  find?_lowest (by decide) (mem_allBufs b) hp hl

/-- The lowest-numbered link that meets a test. -/
theorem find?_allLinks {p : LinkNo → Bool} {l : LinkNo} (hp : p l = true) (hl : ∀ k, k < l → p k = false) :
    allLinks.find? p = some l :=
  find?_lowest (by decide) (mem_allLinks l) hp hl

/-- Settles O2: the clear line's two commands name their next state, and every other one is a `take`, whose only outcome
is a next state. -/
theorem noCommandStops : Obligations.NoCommandStops := by
  intro c s
  cases c with
  | powerOnClear => exact ⟨_, rfl⟩
  | powerOnClearAsserted => exact ⟨_, rfl⟩
  | _ => exact ⟨if _ then _ else settle _, rfl⟩

end Sys2Proof.Machine.ChainControl
end

section
namespace Sys2Proof.Machine.ChainControl
open Sys2Proof.Machine.Laws Sys2Proof.Machine.DriveString

/-! SUPPORT. The acceptance order of a Command Frame (R23): one rule for each check. -/

/-! Checks 1 to 4. -/

/-- Check 1: no drive has the unit's number. -/
theorem acceptance_unitInvalid {l : LinkNo} {unit : BitVec 4} {tag : Byte} {notify : Bool} {count : Byte}
    {body : List Byte} {s : State} (h : 8 ≤ unit.toNat) :
    acceptance l unit tag notify count body s = s.frame l (endingNow unit tag .unitInvalid none none) :=
  dif_neg (by omega)

/-- Checks 2 to 4 of a chain for a drive, and what follows them. -/
theorem acceptance_drive (l : LinkNo) (d : DriveNo) (tag : Byte) (notify : Bool) (count : Byte) (body : List Byte)
    (s : State) :
    acceptance l (BitVec.ofNat 4 d.val) tag notify count body s =
      match readChain count body with
      | .bad entry => s.frame l (endingNow (BitVec.ofNat 4 d.val) tag .formatError entry none)
      | .good es =>
        if tagInUse s l tag then s.frame l (endingNow (BitVec.ofNat 4 d.val) tag .tagInUse none none)
        else if s.allowed l d = false then s.frame l (endingNow (BitVec.ofNat 4 d.val) tag .noPath none none)
        else decideChain l d tag notify es s := by
  have hn : (BitVec.ofNat 4 d.val).toNat = d.val := by
    simp only [BitVec.toNat_ofNat]
    omega
  have hd : ∀ h, (⟨(BitVec.ofNat 4 d.val).toNat, h⟩ : DriveNo) = d := fun _ => Fin.ext hn
  unfold acceptance
  rw [dif_pos (by omega)]
  simp only [hd]
  rfl

theorem tagInUse_iff (s : State) (l : LinkNo) (tag : Byte) :
    tagInUse s l tag = true ↔ ∃ c x, s.ctx c = some x ∧ x.link = some l ∧ x.tag = tag := by
  simp only [tagInUse, List.any_eq_true]
  constructor
  · rintro ⟨c, -, h⟩
    split at h
    · next x hx => exact ⟨c, x, hx, by simpa using h⟩
    · simp at h
  · rintro ⟨c, x, hx, hl, ht⟩
    exact ⟨c, mem_allCtxs c, by simp [hx, hl, ht]⟩

theorem tagInUse_of_free {s : State} {l : LinkNo} {tag : Byte} (h : tagFree l tag s) : tagInUse s l tag = false := by
  rw [Bool.eq_false_iff]
  intro hu
  obtain ⟨c, x, hx, hl, ht⟩ := (tagInUse_iff s l tag).mp hu
  exact h c x hx hl ht

theorem atIdle_work {l : LinkNo} {s : State} (h : atIdle l s) : s.work = [] := by
  obtain ⟨⟨-, hw⟩, -⟩ := h
  exact hw

/-- A Command Frame on an IDLE link sets the floor to 0 and goes through the acceptance order; the link's choice comes
after all that this puts off (R23, R54, R59). -/
theorem exec_commandFrame {l : LinkNo} {unit : BitVec 4} {tag : Byte} {notify : Bool} {count : Byte}
    {body : List Byte} {s u : State} {ts : List Task} (h : atIdle l s)
    (ha : acceptance l unit tag notify count body (floorZero l s) = u.later ts) (hu : u.work = []) :
    exec (.commandFrame l unit tag notify count body) s = .next (drain 4096 (ts ++ [Task.choose l]) u) := by
  obtain ⟨hc, hp⟩ := h
  change execCommandFrame l unit tag notify count body s = _
  refine take_later hc ?_ hu
  simp only [hp]
  rw [show setFloor l 0 s = floorZero l s from rfl, ha, later_later]

/-- A Command Frame that is answered with an immediate Ending (R24). -/
theorem exec_commandFrame_answered {l : LinkNo} {unit : BitVec 4} {tag : Byte} {notify : Bool} {count : Byte}
    {body : List Byte} {s u : State} (h : atIdle l s)
    (ha : acceptance l unit tag notify count body (floorZero l s) = u) (hu : u.work = []) :
    exec (.commandFrame l unit tag notify count body) s = .next (choose l u) := by
  rw [exec_commandFrame h (ha.trans (later_nil u).symm) hu]
  exact congrArg _ (drain_choose hu)

/-- Settles O14: each check's Ending is what `acceptance` answers where the checks before it pass. -/
theorem chainRefusedAtOnce : Obligations.ChainRefusedAtOnce := by
  intro l s tag notify count body hs
  have hw : s.work = [] := atIdle_work hs
  refine ⟨fun unit hu _ => exec_commandFrame_answered hs (acceptance_unitInvalid hu) hw, fun d => ?_⟩
  refine ⟨fun entry hr => ?_, fun es hr => ⟨fun ht => ?_, fun ht hb => ?_⟩⟩
  · refine exec_commandFrame_answered hs ?_ hw
    rw [acceptance_drive, hr]
  · refine exec_commandFrame_answered hs ?_ hw
    rw [acceptance_drive, hr]
    exact if_pos ((tagInUse_iff (floorZero l s) l tag).mpr ht)
  · refine exec_commandFrame_answered hs ?_ hw
    have hf : tagInUse (floorZero l s) l tag = false := tagInUse_of_free ht
    have ha : (floorZero l s).allowed l d = false := hb
    simp only [acceptance_drive, hr, hf, ha, Bool.false_eq_true, if_false, if_true]

end Sys2Proof.Machine.ChainControl
end

section
namespace Sys2Proof.Machine.ChainControl
open Sys2Proof.Machine.Laws Sys2Proof.Machine.DriveString

/-! SUPPORT. Check 6 of the acceptance order on a chain that begins with a SEEK (R23, R26, R27). -/

theorem reaches5_work {l : LinkNo} {d : DriveNo} {tag count : Byte} {body : List Byte} {es : List Entry} {s : State}
    (h : reaches5 l d tag count body es s) : s.work = [] := by
  obtain ⟨hi, -⟩ := h
  exact atIdle_work hi

/-- A chain that passes checks 1 to 4 is decided from check 5 on. -/
theorem acceptance_reaches5 {l : LinkNo} {d : DriveNo} {tag count : Byte} {body : List Byte} {es : List Entry}
    {s : State} (notify : Bool) (h : reaches5 l d tag count body es s) :
    acceptance l (BitVec.ofNat 4 d.val) tag notify count body (floorZero l s) =
      decideChain l d tag notify es (floorZero l s) := by
  obtain ⟨-, hr, ht, ha⟩ := h
  have hf : tagInUse (floorZero l s) l tag = false := tagInUse_of_free ht
  have hp : (floorZero l s).allowed l d = true := ha
  simp [acceptance_drive, hr, hf, hp]

/-- A chain that begins with a SEEK has no pre-step entries: check 6 is next. -/
theorem decideChain_seek (l : LinkNo) (d : DriveNo) (tag : Byte) (notify : Bool) (h : HomeTrack) (es : List Entry)
    (s : State) :
    decideChain l d tag notify (.seek h :: es) s =
      match driveCheck s l d with
      | some cond => s.frame l (endingNow (BitVec.ofNat 4 d.val) tag cond none none)
      | none =>
        match freeSlot s with
        | none => joinCtxWait l notify (s.frame l (endingNow (BitVec.ofNat 4 d.val) tag .controllerBusy none none))
        | some c =>
          ((accepts c (chainOf l d tag s.acceptCount (.seek h :: es)) s).frame l (.taken tag)).later
            [.startStep c] := by
  have hp : preSteps (.seek h :: es) = [] := rfl
  have hn : ¬([] : List Entry).length = (Entry.seek h :: es).length := by simp
  simp only [decideChain, hp, runPre, if_neg hn]
  rfl

/-- Checks 6a to 6e find nothing on a drive that admits the chain. -/
theorem driveCheck_admits {l : LinkNo} {d : DriveNo} {s : State} (h : admits l d s) : driveCheck s l d = none := by
  obtain ⟨ha, hm, hf, hh, hq⟩ := h
  have hr : ¬((s.resv.get d).holder ≠ none ∧ (s.resv.get d).holder ≠ some l) := by
    rcases hh with hh | hh <;> simp [hh]
  simp only [driveCheck, ha, hm, hf, hr, Config.driveLoadLimit, not_le.mpr hq, ne_eq, not_true, Bool.false_eq_true,
    if_false]

theorem freeSlot_none {s : State} (h : ∀ c, s.ctx c ≠ none) : freeSlot s = none :=
  List.find?_eq_none.mpr fun c _ => by simpa using h c

/-- The lowest-numbered FREE context. -/
theorem freeSlot_lowest {c : CtxNo} {s : State} (hc : s.ctx c = none) (hl : ∀ k, k < c → s.ctx k ≠ none) :
    freeSlot s = some c :=
  find?_allCtxs (by simp [hc]) fun k hk => by simpa [Option.isSome_iff_ne_none] using hl k hk

/-- A chain that check 6a to 6e refuses. -/
theorem exec_driveCheck {l : LinkNo} {d : DriveNo} {tag count : Byte} {body : List Byte} {h : HomeTrack}
    {es : List Entry} {s : State} {cond : Condition} (notify : Bool)
    (hr : reaches5 l d tag count body (.seek h :: es) s) (hc : driveCheck s l d = some cond) :
    exec (.commandFrame l (BitVec.ofNat 4 d.val) tag notify count body) s =
      .next (choose l ((floorZero l s).frame l (endingNow (BitVec.ofNat 4 d.val) tag cond none none))) := by
  have hw : s.work = [] := reaches5_work hr
  refine exec_commandFrame_answered hr.1 ?_ hw
  have hc' : driveCheck (floorZero l s) l d = some cond := hc
  rw [acceptance_reaches5 notify hr, decideChain_seek, hc']

/-- A chain that finds no FREE context (check 6f), with the Context Wait List (R26). -/
theorem exec_controllerBusy {l : LinkNo} {d : DriveNo} {tag count : Byte} {body : List Byte} {h : HomeTrack}
    {es : List Entry} {s : State} (notify : Bool) (hr : reaches5 l d tag count body (.seek h :: es) s)
    (ha : admits l d s) (hf : ∀ c, s.ctx c ≠ none) :
    exec (.commandFrame l (BitVec.ofNat 4 d.val) tag notify count body) s =
      .next (choose l ((floorZero l
        (if notify = true ∧ l ∉ s.ctxWait then { s with ctxWait := s.ctxWait ++ [l] } else s)).frame l
          (endingNow (BitVec.ofNat 4 d.val) tag .controllerBusy none none))) := by
  have hc : driveCheck (floorZero l s) l d = none := driveCheck_admits ha
  have hs : freeSlot (floorZero l s) = none := freeSlot_none hf
  have hw : s.work = [] := reaches5_work hr
  refine exec_commandFrame_answered hr.1 ?_ ?_
  · rw [acceptance_reaches5 notify hr, decideChain_seek, hc, hs]
    by_cases hn : notify = true ∧ l ∉ s.ctxWait
    · have hn' : notify = true ∧ (s.ctxWait.contains l) = false := by simpa using hn
      rw [if_pos hn]
      exact if_pos hn'
    · have hn' : ¬(notify = true ∧ (s.ctxWait.contains l) = false) := by simpa using hn
      rw [if_neg hn]
      exact if_neg hn'
  · split <;> exact hw

/-- Settles O17: checks 6a to 6e are the branches of `driveCheck`, and 6f is the search for a FREE context. -/
theorem driveChainChecks : Obligations.DriveChainChecks := by
  intro l d tag notify count body h es s hr
  refine ⟨fun ha => ?_, fun ha hm => ?_, fun ha hm hf => ?_, fun k ha hm hf hk hkl => ?_, fun ha hm hf hh hq => ?_,
    exec_controllerBusy notify hr⟩
  · exact exec_driveCheck notify hr (by simp [driveCheck, ha])
  · exact exec_driveCheck notify hr (by simp [driveCheck, ha, hm])
  · exact exec_driveCheck notify hr (by simp [driveCheck, ha, hm, hf])
  · exact exec_driveCheck notify hr (by simp [driveCheck, ha, hm, hf, hk, hkl])
  · refine exec_driveCheck notify hr ?_
    rcases hh with hh | hh <;> simp [driveCheck, ha, hm, hf, hh, hq, Config.driveLoadLimit]

/-- An admitted chain right after it has been answered Taken: its context given, the floor at 0 (R23, R27). -/
def taken (l : LinkNo) (tag : Byte) (c : CtxNo) (x : Context) (s : State) : State :=
  (accepts c x (floorZero l s)).frame l (.taken tag)

/-- An admitted chain is answered Taken in the lowest-numbered FREE context, and puts off its first step. -/
theorem acceptance_taken {l : LinkNo} {d : DriveNo} {tag count : Byte} {body : List Byte} {h : HomeTrack}
    {es : List Entry} {c : CtxNo} {s : State} (notify : Bool) (hr : reaches5 l d tag count body (.seek h :: es) s)
    (ha : admits l d s) (hc : s.ctx c = none) (hl : ∀ k, k < c → s.ctx k ≠ none) :
    acceptance l (BitVec.ofNat 4 d.val) tag notify count body (floorZero l s) =
      (taken l tag c (chainOf l d tag s.acceptCount (.seek h :: es)) s).later [.startStep c] := by
  have hd : driveCheck (floorZero l s) l d = none := driveCheck_admits ha
  have hf : freeSlot (floorZero l s) = some c := freeSlot_lowest hc hl
  rw [acceptance_reaches5 notify hr, decideChain_seek, hd, hf]
  rfl

/-- An admitted chain, with the run of its internal work. -/
theorem exec_taken {l : LinkNo} {d : DriveNo} {tag count : Byte} {body : List Byte} {h : HomeTrack} {es : List Entry}
    {c : CtxNo} {s : State} (notify : Bool) (hr : reaches5 l d tag count body (.seek h :: es) s) (ha : admits l d s)
    (hc : s.ctx c = none) (hl : ∀ k, k < c → s.ctx k ≠ none) :
    exec (.commandFrame l (BitVec.ofNat 4 d.val) tag notify count body) s =
      .next (drain 4096 [.startStep c, .choose l] (taken l tag c (chainOf l d tag s.acceptCount (.seek h :: es)) s)) := by
  have hw : s.work = [] := reaches5_work hr
  exact exec_commandFrame hr.1 (acceptance_taken notify hr ha hc hl) hw

/-- Settles O18: the acceptance order puts the first step off, and the link's choice comes behind it. -/
theorem driveChainAccepted : Obligations.DriveChainAccepted := by
  intro l d tag notify count body h es c s hr ha hc hl
  have hw : s.work = [] := reaches5_work hr
  rw [exec_taken notify hr ha hc hl]
  exact congrArg _ (settle_later (s := taken l tag c _ s) _ hw).symm

end Sys2Proof.Machine.ChainControl
end

section
namespace Sys2Proof.Machine.ChainControl
open Sys2Proof.Machine.Laws Sys2Proof.Machine.DriveString

/-! SUPPORT. The first step of a chain on a track that no buffer holds, while a buffer is EMPTY (R29, R32, R122). -/

/-! The context of a chain that has been answered Taken. -/

theorem ctx_taken (l : LinkNo) (tag : Byte) (c : CtxNo) (x : Context) (s : State) :
    (taken l tag c x s).ctx c = some x :=
  (get_put s.contexts c c (some x)).trans (if_pos rfl)

theorem setCtx_taken (l : LinkNo) (tag : Byte) (c : CtxNo) (x y : Context) (s : State) :
    (taken l tag c x s).setCtx c (some y) = taken l tag c y s := by
  have hp : put (put s.contexts c (some x)) c (some y) = put s.contexts c (some y) := put_put ..
  change ({ taken l tag c x s with contexts := put (put s.contexts c (some x)) c (some y) } : State) = _
  rw [hp]
  rfl

theorem modCtx_taken (l : LinkNo) (tag : Byte) (c : CtxNo) (x : Context) (f : Context → Context) (s : State) :
    (taken l tag c x s).modCtx c f = taken l tag c (f x) s := by
  rw [modCtx_some (ctx_taken l tag c x s), setCtx_taken]

/-! An EMPTY buffer is assigned. -/

theorem assigns_modCtx (b : BufNo) (d : DriveNo) (h : HomeTrack) (c : CtxNo) (f : Context → Context) (s : State) :
    (assigns b d h s).modCtx c f = assigns b d h (s.modCtx c f) := rfl

theorem ctx_assigns (b : BufNo) (d : DriveNo) (h : HomeTrack) (c : CtxNo) (s : State) :
    (assigns b d h s).ctx c = s.ctx c := rfl

/-- The buffer assigned: nothing but its track and its flag of forced parity. -/
theorem buffer_assigns (b : BufNo) (d : DriveNo) (h : HomeTrack) (s : State) :
    (assigns b d h s).buffer b = ⟨some (d, h), [], false, .none, [], none, (s.buffer b).parityForce⟩ :=
  (get_change s.buffers b b _).trans (if_pos rfl)

theorem state_empty_iff (r : Buffer) : r.state = .empty ↔ r.assigned = none := by
  unfold Buffer.state
  (repeat' split) <;> simp_all

/-- Step 1 of R122 finds no buffer of the track. -/
theorem holderOf_none {d : DriveNo} {h : HomeTrack} {s : State} (hn : ∀ k, (s.buffer k).assigned ≠ some (d, h)) :
    holderOf s d h = none :=
  List.find?_eq_none.mpr fun k _ => by simpa using hn k

/-- Step 2 of R122 takes the lowest-numbered EMPTY buffer. -/
theorem newPlace_empty {b : BufNo} {s : State} (hb : (s.buffer b).assigned = none)
    (hl : ∀ k, k < b → (s.buffer k).assigned ≠ none) : newPlace s = some b := by
  have hf : (allBufs.find? fun k => (s.buffer k).state == .empty) = some b :=
    find?_allBufs (by simp [state_empty_iff, hb]) fun k hk => by simp [state_empty_iff, hl k hk]
  simp [newPlace, hf]

/-- A context asks for a buffer of a track that none holds, while one is EMPTY (R122). -/
theorem request_empty {c : CtxNo} {d : DriveNo} {h : HomeTrack} {b : BufNo} {s : State}
    (hn : ∀ k, (s.buffer k).assigned ≠ some (d, h)) (hb : (s.buffer b).assigned = none)
    (hl : ∀ k, k < b → (s.buffer k).assigned ≠ none) :
    request ⟨.context c, d, h⟩ s =
      (assigns b d h (s.modCtx c fun x => { x with buffer := some b, state := .waitStore .goingOn })).later
        [.assigned c] := by
  have he : ((emptyBuffer b s).modBuffer b fun r => { r with assigned := some (d, h) }) =
      s.modBuffer b fun r => ⟨some (d, h), [], false, .none, [], none, r.parityForce⟩ := by
    simp only [emptyBuffer, State.modBuffer, change_change]
    rfl
  simp only [request, allocate, holderOf_none hn, newPlace_empty hb hl, he]
  rfl

/-! The step's work, piece by piece. -/

/-- The context of a step that has just been assigned its buffer (R29). -/
def provided (h : HomeTrack) (b : BufNo) (expected : List SectorNo) (x : Context) : Context :=
  { x with state := .waitStore .goingOn, home := some h, buffer := some b, expected := expected }

/-- The first step of a chain that reads or writes starts: the lowest-numbered EMPTY buffer is assigned (R29, R122). -/
theorem startStep_taken {l : LinkNo} {tag : Byte} {c : CtxNo} {x : Context} {d : DriveNo} {h : HomeTrack} {b : BufNo}
    {expected : List SectorNo} {s : State} (hd : x.drive = d) (he : x.entries[x.cur]? = some (.seek h))
    (hx : stagingOf x.entries x.cur = expected)
    (hu : (stepEntries x.entries x.cur).any Entry.usesBuffer = true)
    (hn : ∀ k, (s.buffer k).assigned ≠ some (d, h)) (hb : (s.buffer b).assigned = none)
    (hl : ∀ k, k < b → (s.buffer k).assigned ≠ none) :
    startStep c (taken l tag c x s) =
      (assigns b d h (taken l tag c (provided h b expected x) s)).later [.assigned c] := by
  subst hd
  simp only [startStep, ctx_taken, he, hx, hu, if_true, modCtx_taken]
  rw [request_empty (b := b) (by exact hn) (by exact hb) (by exact hl), modCtx_taken]
  rfl

/-- A context assigned its new buffer goes STAGING where the step has WRITE entries (R29, R30). -/
theorem assigned_writes {l : LinkNo} {tag : Byte} {c : CtxNo} {x : Context} {d : DriveNo} {h : HomeTrack} {b : BufNo}
    {n : Nat} {s : State} (hx : x.state = .waitStore .goingOn) (hb : x.buffer = some b) (hl : x.link = some l)
    (he : x.expected.length = n) (hn : 1 ≤ n) :
    assigned c (assigns b d h (taken l tag c x s)) =
      raise l (.reconnect x.drive c .toController n)
        (assigns b d h (taken l tag c { x with state := .staging } s)) := by
  have hne : ¬x.expected = [] := fun h0 => by
    rw [h0, List.length_nil] at he
    omega
  have hf : ¬(((assigns b d h (taken l tag c x s)).buffer b).state = .destaging ∨
      ((assigns b d h (taken l tag c x s)).buffer b).relocPin = true) := by
    simp [buffer_assigns, Buffer.state, Buffer.dirty]
  simp only [assigned, ctx_assigns, ctx_taken, hx, hb, List.isEmpty_iff, hne, if_false, if_neg hf, stage, hl,
    assigns_modCtx, modCtx_taken, he]

/-- A context assigned its new buffer begins the entry walk where the step has no WRITE entry (R29). -/
theorem assigned_walks {l : LinkNo} {tag : Byte} {c : CtxNo} {x : Context} {d : DriveNo} {h : HomeTrack} {b : BufNo}
    {s : State} (hx : x.state = .waitStore .goingOn) (hb : x.buffer = some b) (he : x.expected = []) :
    assigned c (assigns b d h (taken l tag c x s)) =
      (assigns b d h (taken l tag c { x with cur := x.cur + 1 } s)).later [.walk c] := by
  simp only [assigned, ctx_assigns, ctx_taken, hx, hb, he, List.isEmpty_nil, if_true, advance, assigns_modCtx,
    modCtx_taken]

/-- Sectors that are valid in no buffer and not lost come from the drive (R125). -/
theorem supply_drive {s : State} {d : DriveNo} {h : HomeTrack} {b : BufNo} {y : SectorNo}
    (hl : lostOf (s.track d) h = []) (hc : (s.buffer b).cells = []) : supply s d h b y = .drive := by
  simp [supply, hl, Buffer.valid, hc]

/-- An item joins the queue of a drive whose arm is not IDLE (R83). -/
theorem joinQueue_busy {d : DriveNo} {s : State} (w : Work) (h : HomeTrack) (ha : (s.drive d).arm ≠ .idle) :
    joinQueue d w h s = s.modSched d fun q =>
      { q with queue := q.queue ++ [⟨w, h, q.nextRank, 0⟩], nextRank := q.nextRank + 1 } :=
  if_neg ha

/-- A READ that wants its sectors from the drive queues a context that does not hold the arm, behind all other work of a
drive whose arm is not IDLE (R32, R33, R83). -/
theorem walkRead_queues {l : LinkNo} {tag : Byte} {c : CtxNo} {x : Context} {d : DriveNo} {h : HomeTrack} {b : BufNo}
    {first : SectorNo} {n : Nat} {s : State} (hx : x.state = .waitStore .goingOn) (hd : x.drive = d)
    (hh : x.home = some h) (hb : x.buffer = some b) (hs : sectorsFrom first n ≠ [])
    (hl : lostOf (s.track d) h = []) (ha : (s.drive d).arm ≠ .idle) :
    walkRead c x first n (assigns b d h (taken l tag c x s)) =
      (assigns b d h (taken l tag c { x with state := .queued } s)).modSched d fun q =>
        { q with queue := q.queue ++ [⟨.step c, h, q.nextRank, 0⟩], nextRank := q.nextRank + 1 } := by
  have hsup : ∀ y, supply (assigns b d h (taken l tag c x s)) d h b y = .drive := fun y =>
    supply_drive hl (by rw [buffer_assigns])
  have hw : wanted (assigns b d h (taken l tag c x s)) x first n = sectorsFrom first n := by
    simp [wanted, hh, hb, hd, hsup]
  obtain ⟨y, ys, hy⟩ := List.exists_cons_of_ne_nil hs
  simp only [walkRead, hw, hy, hh, hb, hx, reduceCtorEq, if_false, needArm, assigns_modCtx, modCtx_taken, hd]
  exact joinQueue_busy _ _ ha

/-- The entry walk of a context in WAIT_STORE reaches such a READ (R32). -/
theorem walk_queues {l : LinkNo} {tag : Byte} {c : CtxNo} {x : Context} {d : DriveNo} {h : HomeTrack} {b : BufNo}
    {first : SectorNo} {n : Nat} {s : State} (hx : x.state = .waitStore .goingOn)
    (he : x.entries[x.cur]? = some (.read first n)) (hd : x.drive = d) (hh : x.home = some h)
    (hb : x.buffer = some b) (hs : sectorsFrom first n ≠ []) (hl : lostOf (s.track d) h = [])
    (ha : (s.drive d).arm ≠ .idle) :
    walk c (assigns b d h (taken l tag c x s)) =
      (assigns b d h (taken l tag c { x with state := .queued } s)).modSched d fun q =>
        { q with queue := q.queue ++ [⟨.step c, h, q.nextRank, 0⟩], nextRank := q.nextRank + 1 } := by
  rw [← walkRead_queues hx hd hh hb hs hl ha]
  simp [walk, ctx_assigns, ctx_taken, hx, he]

/-! The sectors of one READ or WRITE. -/

theorem allSectors_val : allSectors.map Fin.val = List.Ico 0 16 := by decide

/-- A READ or WRITE that stays on its track names as many sectors as its count (R21). -/
theorem length_sectorsFrom {first : SectorNo} {n : Nat} (hn : first.val + n ≤ 16) :
    (sectorsFrom first n).length = n := by
  have hv : (sectorsFrom first n).map Fin.val =
      (List.Ico 0 16).filter fun k => decide (first.val ≤ k) && decide (k < first.val + n) := by
    rw [← allSectors_val, List.filter_map]
    rfl
  calc (sectorsFrom first n).length = ((sectorsFrom first n).map Fin.val).length := (List.length_map _).symm
    _ = n := by
      rw [hv, ← List.filter_filter, List.Ico.filter_lt, List.Ico.filter_le, List.Ico.length]
      omega

theorem sectorsFrom_ne_nil {first : SectorNo} {n : Nat} (hn : 1 ≤ n) (hfit : first.val + n ≤ 16) :
    sectorsFrom first n ≠ [] :=
  List.ne_nil_of_length_pos (by rw [length_sectorsFrom hfit]; exact hn)

/-! The whole first step. -/

/-- The first step of SEEK and one WRITE, run to the link's choice: the context is STAGING, its RECONNECT
raised (R30). -/
theorem drain_seekWrite {l : LinkNo} {d : DriveNo} {tag : Byte} {order n : Nat} {h : HomeTrack} {first : SectorNo}
    {c : CtxNo} {b : BufNo} {s : State} (hw : s.work = []) (hn : 1 ≤ n) (hfit : first.val + n ≤ 16)
    (hhold : ∀ k, (s.buffer k).assigned ≠ some (d, h)) (hb : (s.buffer b).assigned = none)
    (hl : ∀ k, k < b → (s.buffer k).assigned ≠ none) :
    drain 4096 [.startStep c, .choose l] (taken l tag c (chainOf l d tag order [.seek h, .write first n]) s) =
      choose l (raise l (.reconnect d c .toController n) (assigns b d h (taken l tag c
        { chainOf l d tag order [.seek h, .write first n] with
          state := .staging, home := some h, buffer := some b, expected := sectorsFrom first n } s))) := by
  refine drain_hands (startStep_taken (expected := sectorsFrom first n) rfl rfl (List.append_nil _) rfl hhold hb hl)
    hw ?_
  refine drain_does (k := .assigned c) (assigned_writes rfl rfl rfl (length_sectorsFrom hfit) hn) (raise_work hw) ?_
  exact drain_choose (raise_work hw)

/-- The first step of SEEK and one READ, run to the link's choice: the context is QUEUED (R33). -/
theorem drain_seekRead {l : LinkNo} {d : DriveNo} {tag : Byte} {order n : Nat} {h : HomeTrack} {first : SectorNo}
    {c : CtxNo} {b : BufNo} {s : State} (hw : s.work = []) (hn : 1 ≤ n) (hfit : first.val + n ≤ 16)
    (hhold : ∀ k, (s.buffer k).assigned ≠ some (d, h)) (hb : (s.buffer b).assigned = none)
    (hl : ∀ k, k < b → (s.buffer k).assigned ≠ none) (ha : (s.drive d).arm ≠ .idle)
    (hlost : lostOf (s.track d) h = []) :
    drain 4096 [.startStep c, .choose l] (taken l tag c (chainOf l d tag order [.seek h, .read first n]) s) =
      choose l ((assigns b d h (taken l tag c
        { chainOf l d tag order [.seek h, .read first n] with
          state := .queued, cur := 1, home := some h, buffer := some b } s)).modSched d fun q =>
          { q with queue := q.queue ++ [⟨.step c, h, q.nextRank, 0⟩], nextRank := q.nextRank + 1 }) := by
  refine drain_hands (startStep_taken (expected := []) rfl rfl rfl rfl hhold hb hl) hw ?_
  refine drain_hands (k := .assigned c) (assigned_walks rfl rfl rfl) hw ?_
  refine drain_does (k := .walk c) (walk_queues rfl rfl rfl rfl rfl (sectorsFrom_ne_nil hn hfit) hlost ha) hw ?_
  exact drain_choose hw

/-- Settles O19: the pieces of work that the first step hands on, run one after another, and then the link's choice. -/
theorem firstStepStarts : Obligations.FirstStepStarts := by
  intro l d tag notify count body h first n c b s ha hn hfit hc hlow hhold hb hblow
  refine ⟨fun hr => ?_, fun hr harm hlost => ?_⟩
  · rw [exec_taken notify hr ha hc hlow, drain_seekWrite (reaches5_work hr) hn hfit hhold hb hblow]
    rfl
  · rw [exec_taken notify hr ha hc hlow,
      drain_seekRead (reaches5_work hr) hn hfit hhold hb hblow harm hlost]
    rfl

end Sys2Proof.Machine.ChainControl
end

section
namespace Sys2Proof.Machine.ChainControl
open Sys2Proof.Machine.Laws Sys2Proof.Machine.DriveString

/-! SUPPORT. An accepted offer (R26, R38, R56), and a link reset, gone down or come up (R42, R43, R77, R78). -/

/-! ACCEPT. -/

/-- Settles O23: the offered item leaves the set, and its kind decides what else its acceptance does. -/
theorem acceptTakesOffer : Obligations.AcceptTakesOffer := by
  intro l i s hs ho
  change (∀ d c, i.body = .ending d c → execAccept l s = _) ∧
    (∀ d c dir n, i.body = .reconnect d c dir n → execAccept l s = _) ∧ (_ → _ → execAccept l s = _)
  unfold execAccept
  refine ⟨fun d c hi => take_effect hs ?_ ?_, fun d c dir n hi => take_effect hs ?_ ?_,
    fun hne hnr => take_effect hs ?_ ?_⟩
  · simp only [ho, hi]
    rfl
  · exact goIdle_work (raiseOn_work hs.2)
  · simp only [ho, hi]
    rfl
  · exact hs.2
  · simp only [ho]
    rfl
  · exact goIdle_work hs.2

/-! LINK_RESET, LINK_DOWN and LINK_UP. -/

theorem modResv_modResv (s : State) (d : DriveNo) (f g : Reservation → Reservation) :
    (s.modResv d f).modResv d g = s.modResv d fun r => g (f r) := by
  simp only [State.modResv, change_change]

/-- A holder is cleared, and nobody waits. -/
theorem clearHolder_noWaiter {d : DriveNo} {s : State} (h : (s.resv.get d).waitList = []) :
    clearHolder d s = s.modResv d fun _ => ⟨none, []⟩ := by
  have hw : ((s.modResv d fun r => { r with holder := none }).resv.get d).waitList = [] := by
    rw [modResv_resv, get_change, if_pos rfl]
    exact h
  have hset : s.modResv d (fun r => { r with holder := none }) = s.modResv d fun _ => ⟨none, []⟩ := by
    simp only [State.modResv, change, h]
  rw [clearHolder, handOff, hw, hset]

/-- A holder is cleared, and the first who waits is granted the drive. -/
theorem clearHolder_waiter {d : DriveNo} {k : LinkNo} {rest : List LinkNo} {s : State}
    (h : (s.resv.get d).waitList = k :: rest) :
    clearHolder d s = raise k (.reservationGranted d) (s.modResv d fun _ => ⟨some k, rest⟩) := by
  have hw : ((s.modResv d fun r => { r with holder := none }).resv.get d).waitList = k :: rest := by
    rw [modResv_resv, get_change, if_pos rfl]
    exact h
  rw [clearHolder, handOff, hw]
  exact congrArg (raise k (.reservationGranted d)) (modResv_modResv s d _ _)

/-- A link gives up its reservation of one drive, or its place (R77). -/
theorem loseReservation_eq (l : LinkNo) (d : DriveNo) (s : State) : loseReservation l d s = givesUp l d s := by
  unfold loseReservation givesUp
  by_cases hh : (s.resv.get d).holder = some l
  · rw [if_pos hh, if_pos hh]
    cases hw : (s.resv.get d).waitList with
    | nil => exact clearHolder_noWaiter hw
    | cons k rest => exact clearHolder_waiter hw
  · rw [if_neg hh, if_neg hh]
    rfl

theorem loseReservations_eq (l : LinkNo) (s : State) : loseReservations l s = each allDrives (givesUp l) s := by
  have h : loseReservation l = givesUp l := by
    funext d s
    exact loseReservation_eq l d s
  rw [loseReservations, h]

theorem givesUp_work (l : LinkNo) (d : DriveNo) (s : State) : (givesUp l d s).work = s.work := by
  unfold givesUp
  (repeat' split) <;> simp

theorem each_givesUp_work (l : LinkNo) {s : State} (h : s.work = []) :
    (each allDrives (givesUp l) s).work = [] :=
  each_keeps (P := fun t => t.work = []) (fun d t ht => (givesUp_work l d t).trans ht) _ s h

/-- The reset of a link with no chains clears it, and puts off what it gives up (R42, R43, R77). -/
theorem resetLink_noChains {l : LinkNo} {s : State} (enters : LinkState)
    (h : ∀ c x, s.ctx c = some x → x.link ≠ some l) :
    resetLink l enters s = (linkCleared l enters s).later [.loseReservations l] := by
  have hn : ctxsWhere (linkCleared l enters s) (fun x => x.link == some l) = [] :=
    ctxsWhere_none fun c x hx => by simpa using h c x hx
  have hu : clearSet l (({ s with ctxWait := s.ctxWait.filter fun k => k != l } : State).modPort l fun _ =>
      ⟨enters, 0, none⟩) = linkCleared l enters s := rfl
  simp only [resetLink, hu, hn, each_nil, List.filter_nil, List.map_nil, List.nil_append]

/-- A command that puts off what a link gives up (R77). -/
theorem take_givesUp {l : LinkNo} {s u : State} {f : State → State} (hs : calm s)
    (hf : f s = u.later [.loseReservations l]) (hu : u.work = []) :
    take s f = .next (each allDrives (givesUp l) u) :=
  take_single hs hf hu (loseReservations_eq l u) (each_givesUp_work l hu)

/-- The state a link that has gone down leaves, what it gives up apart (R43). -/
theorem resetLink_down {l : LinkNo} {s : State} (h : ∀ c x, s.ctx c = some x → x.link ≠ some l) :
    (resetLink l .down s).modAuth l (fun a => { a with full := false }) =
      ((linkCleared l .down s).modAuth l fun a => { a with full := false }).later [.loseReservations l] := by
  rw [resetLink_noChains .down h]
  rfl

/-- Settles O26: the link's own records are cleared at once, its reservations by one piece of work. -/
theorem linkResetDownUp : Obligations.LinkResetDownUp := by
  intro l s hs
  have hline : ∀ up, calm (setLine l up s) := fun _ => hs
  refine ⟨fun hp => ⟨fun hn => ⟨?_, ?_⟩, ?_⟩, fun hp => ⟨?_, ?_⟩⟩
  · change execLinkReset l s = _
    exact take_givesUp hs ((if_neg hp).trans (resetLink_noChains .idle hn)) hs.2
  · change execLinkDown l s = _
    exact take_givesUp (hline false) ((if_neg hp).trans (resetLink_down (s := setLine l false s) hn)) hs.2
  · change execLinkUp l s = _
    exact take_effect (hline true) (if_neg hp) hs.2
  · change execLinkDown l s = _
    exact take_effect (hline false) (if_pos hp) hs.2
  · change execLinkUp l s = _
    exact take_effect (hline true) (if_pos hp) hs.2

end Sys2Proof.Machine.ChainControl
end

section
namespace Sys2Proof.Machine.ChainControl
open Sys2Proof.Machine.Laws Sys2Proof.Machine.DriveString

/-! SUPPORT. A chain that ends by a command of its link, its buffer pinned by another chain too (R31, R37, R39 to
R41). -/

/-! What holds the chain lets it go (steps 1 to 3 of R37). -/

/-- A chain off the Buffer Wait List, its condition recorded. -/
theorem unlist_leaving {c : CtxNo} {x : Context} {s : State} (e : Ending) (hx : s.ctx c = some x) :
    unlist (fun w => w.who == .context c)
      (s.modCtx c fun y => { y with state := .waitStore .leaving, ending := some e }) = leaving c x e s := by
  rw [modCtx_some hx]
  rfl

/-- The link connected to a context, where no other is (R53). -/
theorem connectedLink_eq {c : CtxNo} {l : LinkNo} {dir : Direction} {s : State}
    (h : (s.port l).state = .connected c dir) (hu : ∀ k way, (s.port k).state = .connected c way → k = l) :
    connectedLink s c = some l := by
  refine find?_allLinks (by simp [h]) fun k hk => ?_
  split
  · next j way hj =>
    by_contra hne
    have hjc : j = c := by simpa using hne
    exact hk.ne (hu k way (hjc ▸ hj))
  · rfl

section
variable {c : CtxNo} {x : Context} {cond : Condition} {s : State} (entry : Option Nat) (sectors : List SectorNo)
  (arm : State → State)

theorem beginEnding_queued (hx : s.ctx c = some x) (hc : cond ≠ .complete) (h : x.state = .queued) :
    beginEnding c cond entry sectors arm s =
      unqueued c x.drive (leaving c x ⟨cond, some (entry.getD x.cur), sectors⟩ s) := by
  simp only [beginEnding, hx, if_neg hc, withdrawFrom, unlist_leaving _ hx, h, reduceCtorEq, if_false]
  rfl

theorem beginEnding_offering {l : LinkNo} (hx : s.ctx c = some x) (hc : cond ≠ .complete)
    (h : x.state = .staging ∨ x.state = .waitLink) (hl : x.link = some l) :
    beginEnding c cond entry sectors arm s =
      withdraw l (.reconnect x.drive c .toHost 0) (leaving c x ⟨cond, some (entry.getD x.cur), sectors⟩ s) := by
  rcases h with h | h <;>
    simp only [beginEnding, hx, if_neg hc, withdrawFrom, unlist_leaving _ hx, h, hl, reduceCtorEq, if_false]

theorem beginEnding_connected {l : LinkNo} {dir : Direction} (hx : s.ctx c = some x) (hc : cond ≠ .complete)
    (h : x.state = .connected) (hp : (s.port l).state = .connected c dir)
    (hu : ∀ k way, (s.port k).state = .connected c way → k = l) :
    beginEnding c cond entry sectors arm s =
      goIdle l (leaving c x ⟨cond, some (entry.getD x.cur), sectors⟩ s) := by
  have hk : connectedLink (leaving c x ⟨cond, some (entry.getD x.cur), sectors⟩ s) c = some l :=
    connectedLink_eq hp hu
  simp only [beginEnding, hx, if_neg hc, withdrawFrom, unlist_leaving _ hx, h, hk, reduceCtorEq, if_false]

theorem beginEnding_waiting {w : StoreWait} (hx : s.ctx c = some x) (hc : cond ≠ .complete)
    (h : x.state = .waitStore w) :
    beginEnding c cond entry sectors arm s = leaving c x ⟨cond, some (entry.getD x.cur), sectors⟩ s := by
  simp only [beginEnding, hx, if_neg hc, withdrawFrom, unlist_leaving _ hx, h, reduceCtorEq, if_false]

theorem beginEnding_holdsArm (hx : s.ctx c = some x) (hc : cond ≠ .complete) (h : x.state = .active) :
    beginEnding c cond entry sectors arm s = arm (leaving c x ⟨cond, some (entry.getD x.cur), sectors⟩ s) := by
  simp only [beginEnding, hx, if_neg hc, withdrawFrom, unlist_leaving _ hx, h, if_true]

end

/-! The chain's pin and its ENDING (steps 4 and 5 of R37). -/

/-- Where the chain's buffer is shared, the last two pieces of its ending hand on nothing. -/
theorem drain_ends {n : Nat} {c : CtxNo} {x : Context} {e : Ending} {u v : State} (hw : v.work = [])
    (hc : v.contexts = (leaving c x e u).contexts) (hp : pinnedByOther c x u) :
    drain (n + 3) [.unpin c, .raiseEnding c] v = ends c x e v := by
  have hctx : ∀ k, v.ctx k = (leaving c x e u).ctx k := fun k => congrArg (fun t => t.get k) hc
  have hv : v.ctx c = _ := (hctx c).trans ((ctx_leaving c c x e u).trans (if_pos rfl))
  have hq : pinnedByOther c x v := by
    have h := pinnedByOther_leaving (e := e) hp
    simpa only [pinnedByOther, hctx] using h
  have hu : (unpin c v).work = [] := (unpin_shared_work hv rfl hq).trans hw
  exact drain_does (k := .unpin c) rfl hu
    (drain_does (k := .raiseEnding c) (raiseEnding_unpin hv hq) ((raisesEnding_work c x _).trans hw) rfl)

/-- The same, where an arm that finds nothing to select comes first. -/
theorem drain_selects_ends {n : Nat} {d : DriveNo} {c : CtxNo} {x : Context} {e : Ending} {u v : State}
    (hd : select d v = v) (hw : v.work = []) (hc : v.contexts = (leaving c x e u).contexts)
    (hp : pinnedByOther c x u) : drain (n + 4) [.select d, .unpin c, .raiseEnding c] v = ends c x e v :=
  drain_does (k := .select d) hd hw (drain_ends hw hc hp)

/-- A command whose effect lets a chain go and puts off its pin and its ENDING. -/
theorem take_ends {c : CtxNo} {x : Context} {e : Ending} {s u v : State} {f : State → State} (hs : calm s)
    (hf : f s = v.later [.unpin c, .raiseEnding c]) (hw : v.work = [])
    (hc : v.contexts = (leaving c x e u).contexts) (hp : pinnedByOther c x u) : take s f = .next (ends c x e v) := by
  rw [take_later hs hf hw, drain_ends (n := 4093) hw hc hp]

/-! DATA_TIMEOUT. -/

/-- Settles O27: the chain is CONNECTED, so its link goes IDLE. -/
theorem dataTimeoutEndsChain : Obligations.DataTimeoutEndsChain := by
  intro l c k x y b s hs hport honly hx hstate _ hb hy hk hyb
  have hlive : x.leaves = false := by simp [Context.leaves, hstate]
  have hp : pinnedByOther c x s := fun b' hb' => ⟨k, y, hk, hy, by rw [hyb, ← hb, hb']⟩
  have hbegin := beginEnding_connected (firstUnfilled x) [] id hx (cond := .linkTimeout) (by decide) hstate hport honly
  change execDataTimeout l s = _
  unfold execDataTimeout
  refine take_ends hs ?_ (goIdle_work hs.2) (contexts_of_behind (behind_goIdle ..)) hp
  simp only [hport, hx]
  rw [endChain_of_live _ _ _ _ hx hlive, hbegin]

/-! HALT. -/

/-- The context that a Halt finds, where one live chain of the link carries the tag (R39). -/
theorem ctxOfTag_some {l : LinkNo} {tag : Byte} {c : CtxNo} {x : Context} {s : State} (hx : s.ctx c = some x)
    (hl : x.link = some l) (ht : x.tag = tag)
    (hu : ∀ k y, s.ctx k = some y → y.link = some l → y.tag = tag → k = c) : ctxOfTag s l tag = some c := by
  refine find?_allCtxs (by simp [hx, hl, ht]) fun k hk => ?_
  split
  · next y hy =>
    by_contra hne
    obtain ⟨hyl, hyt⟩ : y.link = some l ∧ y.tag = tag := by simpa using hne
    exact hk.ne (hu k y hy hyl hyt)
  · rfl

theorem ctxOfTag_none {l : LinkNo} {tag : Byte} {s : State} (h : tagFree l tag s) : ctxOfTag s l tag = none := by
  refine List.find?_eq_none.mpr fun k _ => ?_
  split
  · next y hy => simpa using h k y hy
  · simp

/-- A Halt that comes too late only answers so. -/
theorem exec_halt_late {l : LinkNo} {tag : Byte} {s : State} (hs : calm s) (hp : (s.port l).state ≠ .down)
    (h : haltTooLate s l tag = true) : exec (.halt l tag) s = .next (s.frame l (.haltAnswer tag true)) := by
  change execHalt l tag s = _
  unfold execHalt
  refine take_effect hs ?_ hs.2
  simp only [if_neg hp, h, if_true]
  split <;> rfl

/-- A Halt of this tag finds this chain, which has not ended, and nothing else of its tag (R39). -/
def haltFinds (l : LinkNo) (tag : Byte) (c : CtxNo) (x : Context) (s : State) : Prop :=
  calm s ∧ (s.port l).state ≠ .down ∧ ctxOfTag s l tag = some c ∧ s.ctx c = some x ∧ x.state ≠ .ending

/-- The Halt answered DONE. -/
def haltDone (l : LinkNo) (tag : Byte) (s : State) : State := s.frame l (.haltAnswer tag false)

/-- A Halt answered DONE acts on the context it finds (R40). -/
theorem exec_halt_done {l : LinkNo} {tag : Byte} {c : CtxNo} {x : Context} {s u : State} {ts : List Task}
    (h : haltFinds l tag c x s) (hu : haltCtx c (haltDone l tag s) = u.later ts) (hw : u.work = []) :
    exec (.halt l tag) s = .next (drain 4096 ts u) := by
  obtain ⟨hs, hp, hc, hx, hne⟩ := h
  have hl : haltTooLate s l tag = false := by simp [haltTooLate, hc, hx, hne]
  change execHalt l tag s = _
  unfold execHalt
  refine take_later hs ?_ hw
  rw [← hu]
  simp only [if_neg hp, hl, hc, Bool.false_eq_true, if_false]
  rfl

/-- A second Halt has no effect (R40). -/
theorem haltCtx_again {c : CtxNo} {x : Context} {s : State} (hx : s.ctx c = some x) (h : x.stop = .halt) :
    haltCtx c s = s := by
  simp [haltCtx, hx, h]

/-- A chain under a pass takes the stop request (R41). -/
theorem haltCtx_pass {c : CtxNo} {x : Context} {s : State} (hx : s.ctx c = some x) (h : x.stop ≠ .halt)
    (ha : x.state = .active) (ht : (s.drive x.drive).arm = .transferring) :
    haltCtx c s = s.setCtx c (some { x with stop := .halt }) := by
  simp only [haltCtx, hx, if_neg h, if_pos (And.intro ha ht), modCtx_some hx]

/-- Any other chain ends HALTED (R40). -/
theorem haltCtx_ends {c : CtxNo} {x : Context} {s : State} (hx : s.ctx c = some x) (h : x.stop ≠ .halt)
    (hl : x.leaves = false) (ha : ¬(x.state = .active ∧ (s.drive x.drive).arm = .transferring)) :
    haltCtx c s =
      (beginEnding c .halted none [] (detachArm x.drive) s).later [.unpin c, .raiseEnding c] := by
  simp only [haltCtx, hx, if_neg h, if_neg ha]
  exact endChain_of_live _ _ _ _ hx hl

/-- A Halt that finds a chain which lets go of what holds it at once. -/
theorem exec_halt_ends {l : LinkNo} {tag : Byte} {c : CtxNo} {x : Context} {s v : State}
    (h : haltFinds l tag c x s) (hstop : x.stop ≠ .halt) (hl : x.leaves = false)
    (ha : ¬(x.state = .active ∧ (s.drive x.drive).arm = .transferring)) (hp : pinnedByOther c x s)
    (hv : beginEnding c .halted none [] (detachArm x.drive) (haltDone l tag s) = v)
    (hc : v.contexts = (leaving c x ⟨.halted, some x.cur, []⟩ (haltDone l tag s)).contexts) (hw : v.work = []) :
    exec (.halt l tag) s = .next (ends c x ⟨.halted, some x.cur, []⟩ v) := by
  obtain ⟨-, -, -, hx, -⟩ := id h
  have hh := haltCtx_ends (s := haltDone l tag s) hx hstop hl ha
  rw [hv] at hh
  rw [exec_halt_done h hh hw, drain_ends (n := 4093) hw hc hp]

/-- A settle or a seek runs on without the chain (R40). -/
theorem detachArm_moving {d : DriveNo} {s : State} (h : (s.drive d).arm = .settling ∨ (s.drive d).arm = .seeking) :
    detachArm d s = s.modSched d fun q =>
      { q with selection := q.selection.map fun k => { k with detached := true } } := by
  rcases h with h | h <;> simp only [detachArm, h]

/-- An orientation is given up, and the arm without other work enters IDLE (R40, R87). -/
theorem detachArm_orienting {d : DriveNo} {s : State} (h : (s.drive d).arm = .orienting)
    (hc : (s.drive d).cyl ≠ none) (hn : noWork d s) :
    detachArm d s = (unselected d (s.setArm d .idle)).later [.select d] := by
  obtain ⟨cyl, hcyl⟩ := Option.ne_none_iff_exists'.mp hc
  simp only [detachArm, h]
  exact enterIdle_noWork hcyl hn

theorem noWork_idle {d : DriveNo} {s : State} (h : noWork d s) : noWork d (unselected d (s.setArm d .idle)) :=
  noWork_unselected (noWork_modDrive rfl h)

theorem unselected_work (d : DriveNo) (s : State) : (unselected d s).work = s.work := rfl

/-- A Halt that finds a chain ORIENTING, without other work for the arm. -/
theorem exec_halt_orienting {l : LinkNo} {tag : Byte} {c : CtxNo} {x : Context} {s : State}
    (h : haltFinds l tag c x s) (hstop : x.stop ≠ .halt) (hst : x.state = .active)
    (ha : (s.drive x.drive).arm = .orienting) (hcyl : (s.drive x.drive).cyl ≠ none) (hn : noWork x.drive s)
    (hp : pinnedByOther c x s) :
    exec (.halt l tag) s = .next (ends c x ⟨.halted, some x.cur, []⟩ (unselected x.drive
      ((leaving c x ⟨.halted, some x.cur, []⟩ (haltDone l tag s)).setArm x.drive .idle))) := by
  obtain ⟨⟨-, hw⟩, -, -, hx, -⟩ := id h
  have hl : x.leaves = false := by simp [Context.leaves, hst]
  have hpass : ¬(x.state = .active ∧ (s.drive x.drive).arm = .transferring) := by simp [ha]
  have hleft : noWork x.drive (leaving c x ⟨.halted, some x.cur, []⟩ (haltDone l tag s)) := by
    obtain ⟨hqueue, hreloc, hpending⟩ := hn
    exact ⟨hqueue, hreloc, hpending⟩
  have harm := detachArm_orienting (s := leaving c x ⟨.halted, some x.cur, []⟩ (haltDone l tag s)) ha hcyl hleft
  have hbegin := (beginEnding_holdsArm (s := haltDone l tag s) none [] (detachArm x.drive) hx
    (cond := .halted) (by decide) hst).trans harm
  have hh := haltCtx_ends (s := haltDone l tag s) hx hstop hl hpass
  rw [hbegin, later_later] at hh
  have hv : (unselected x.drive ((leaving c x ⟨.halted, some x.cur, []⟩ (haltDone l tag s)).setArm x.drive
    .idle)).work = [] := (unselected_work ..).trans hw
  refine (exec_halt_done h hh hv).trans (congrArg _ ?_)
  exact drain_selects_ends (n := 4092) (select_noWork (noWork_idle hleft)) hv (u := haltDone l tag s) rfl hp

/-- Settles O25: the chain's state names what holds it, and the arm's state what becomes of the arm. -/
theorem haltAnswered : Obligations.HaltAnswered := by
  intro l tag s hs hp
  refine ⟨fun hf => exec_halt_late hs hp (by simp [haltTooLate, ctxOfTag_none hf]), fun c x hx hl ht hu => ?_⟩
  have hc : ctxOfTag s l tag = some c := ctxOfTag_some hx hl ht hu
  have finds : x.state ≠ .ending → haltFinds l tag c x s := fun hne => ⟨hs, hp, hc, hx, hne⟩
  have hnc : Condition.halted ≠ .complete := by decide
  refine ⟨fun hst => exec_halt_late hs hp (by simp [haltTooLate, hc, hx, hst]), fun hne hstop => ?_,
    fun hst ha hstop => ?_, fun hstop hpin => ?_⟩
  · have hh := haltCtx_again (s := haltDone l tag s) hx hstop
    exact exec_halt_done (ts := []) (finds hne) (hh.trans (later_nil _).symm) hs.2
  · have hh := haltCtx_pass (s := haltDone l tag s) hx hstop hst ha
    exact exec_halt_done (ts := []) (finds (by simp [hst])) (hh.trans (later_nil _).symm) hs.2
  have without_arm : ∀ v, x.leaves = false → x.state ≠ .active →
      beginEnding c .halted none [] (detachArm x.drive) (haltDone l tag s) = v →
      v.contexts = (leaving c x ⟨.halted, some x.cur, []⟩ (haltDone l tag s)).contexts → v.work = [] →
      exec (.halt l tag) s = .next (ends c x ⟨.halted, some x.cur, []⟩ v) := fun v hlive hst =>
    exec_halt_ends (finds (by rintro he; simp [Context.leaves, he] at hlive)) hstop hlive (by simp [hst]) hpin
  refine ⟨fun hst => ?_, fun hst => ?_, fun dir hst hport honly => ?_, fun w hst hw => ?_, fun hst ha => ?_,
    fun hst ha hcyl hn => ?_⟩
  · exact without_arm _ (by simp [Context.leaves, hst]) (by simp [hst]) (beginEnding_queued none [] _ hx hnc hst) rfl
      hs.2
  · have hlive : x.leaves = false := by rcases hst with h | h <;> simp [Context.leaves, h]
    have hna : x.state ≠ .active := by rcases hst with h | h <;> simp [h]
    exact without_arm _ hlive hna (beginEnding_offering none [] _ hx hnc hst hl)
      (contexts_of_behind (behind_withdraw ..)) (withdraw_work hs.2)
  · exact without_arm _ (by simp [Context.leaves, hst]) (by simp [hst])
      (beginEnding_connected none [] _ hx hnc hst hport honly) (contexts_of_behind (behind_goIdle ..))
      (goIdle_work hs.2)
  · exact without_arm _ (by simp [Context.leaves, hst, hw]) (by simp [hst])
      (beginEnding_waiting none [] _ hx hnc hst) rfl hs.2
  · have hpass : ¬(x.state = .active ∧ (s.drive x.drive).arm = .transferring) := by
      rcases ha with ha | ha <;> simp [ha]
    exact exec_halt_ends (finds (by simp [hst])) hstop (by simp [Context.leaves, hst]) hpass hpin
      ((beginEnding_holdsArm (s := haltDone l tag s) none [] _ hx hnc hst).trans (detachArm_moving ha)) rfl hs.2
  · exact exec_halt_orienting (finds (by simp [hst])) hstop hst ha hcyl hn hpin

end Sys2Proof.Machine.ChainControl
end

section
namespace Sys2Proof.Machine.PresentationControl
open Sys2Proof.Machine.Laws

/-! SUPPORT. A port and a set that have been changed, and what the choice of R54 can do. -/

@[simp] theorem port_modPort (l k : LinkNo) (f : Port → Port) (s : State) :
    (s.modPort l f).port k = if l = k then f (s.port l) else s.port k := get_change s.ports l k f

theorem present_modPresent (l k : LinkNo) (f : Present → Present) (s : State) :
    (s.modPresent l f).present.get k = if l = k then f (s.present.get l) else s.present.get k :=
  get_change s.present l k f

/-- The item of highest level is one of those given. -/
theorem highest_mem {level : Item → Fin 16} {xs : List Item} {i : Item} (h : highest level xs = some i) :
    i ∈ xs := by
  induction xs generalizing i with
  | nil => simp [highest] at h
  | cons x r ih =>
    cases hr : highest level r with
    | none => simp_all [highest]
    | some j =>
      have hj : j ∈ r := ih hr
      simp only [highest, hr] at h
      split at h <;> simp_all

theorem mem_offerable {s : State} {l : LinkNo} {i : Item} :
    i ∈ offerable s l ↔ i ∈ (s.present.get l).items ∧ (s.port l).floor < levelOf s l i.body.kind := by
  simp [offerable]

/-- A link that is not IDLE makes no choice. -/
theorem choose_busy {l : LinkNo} {s : State} (h : (s.port l).state ≠ .idle) : choose l s = s := by
  unfold choose
  split
  · next hp => exact absurd hp h
  · rfl

/-- An IDLE link offers the item of highest level above its floor. -/
theorem choose_offers {l : LinkNo} {i : Item} {s : State} (h : (s.port l).state = .idle)
    (hi : highest (fun i => levelOf s l i.body.kind) (offerable s l) = some i) :
    choose l s = (s.frame l (offerFrame s i)).modPort l fun p => { p with state := .offering i.age } := by
  simp only [choose, h, hi]

/-- An IDLE link with no item above its floor offers nothing. -/
theorem choose_nothing {l : LinkNo} {s : State} (h : offerable s l = []) : choose l s = s := by
  unfold choose
  rw [h]
  split <;> rfl

/-- What the choice can do: nothing, or the offer of an item of the set. -/
theorem choose_cases (l : LinkNo) (s : State) :
    choose l s = s ∨ ∃ i ∈ (s.present.get l).items,
      choose l s = (s.frame l (offerFrame s i)).modPort l fun p => { p with state := .offering i.age } := by
  by_cases h : (s.port l).state = .idle
  · cases hi : highest (fun i => levelOf s l i.body.kind) (offerable s l) with
    | some i =>
      obtain ⟨hm, -⟩ := mem_offerable.mp (highest_mem hi)
      exact .inr ⟨i, hm, choose_offers h hi⟩
    | none => exact .inl (by simp only [choose, h, hi])
  · exact .inl (choose_busy h)

end Sys2Proof.Machine.PresentationControl
end

section
namespace Sys2Proof.Machine.PresentationControl
open Sys2Proof.Machine.Laws

/-! SUPPORT. An offered item is in its link's set (R53), link by link: for every operation one equation, whose right side
is the law of the state before or what the operation adds to it. The equations form a simp set, as those of what has
been sent do. -/

/-- The law of one link: what it offers is in its set (R53). -/
def offerAt (j : LinkNo) (s : State) : Prop :=
  ∀ age, (s.port j).state = .offering age → ∃ i ∈ (s.present.get j).items, i.age = age

theorem offerLaw_iff (s : State) : offerLaw s ↔ ∀ j, offerAt j s := Iff.rfl

/-- An operation makes the law of a link hold where it did not. -/
def mends (j : LinkNo) (f : State → State) (s : State) : Prop := ¬offerAt j s ∧ offerAt j (f s)

/-- An operation that keeps the law, as an equation that simp rewrites with. -/
theorem keeps {j : LinkNo} {f : State → State} {s : State} (h : offerAt j s → offerAt j (f s)) :
    offerAt j (f s) = (offerAt j s ∨ mends j f s) := by
  unfold mends
  exact propext ⟨fun hf => or_iff_not_imp_left.mpr fun hs => ⟨hs, hf⟩, fun hs => hs.elim h And.right⟩

/-- A link that offers nothing keeps the law. -/
theorem offerAt_of_state {j : LinkNo} {s : State} (h : ∀ age, (s.port j).state ≠ .offering age) : offerAt j s :=
  fun age ha => absurd ha (h age)

section
variable (j : LinkNo) (s : State)

/-! The updates of the state. -/

@[simp] theorem offerAt_modAuth (l : LinkNo) (f : Authority → Authority) :
    offerAt j (s.modAuth l f) = offerAt j s := rfl
@[simp] theorem offerAt_setCtx (c : CtxNo) (x : Option Context) : offerAt j (s.setCtx c x) = offerAt j s := rfl
@[simp] theorem offerAt_modCtx (c : CtxNo) (f : Context → Context) : offerAt j (s.modCtx c f) = offerAt j s := rfl
@[simp] theorem offerAt_modResv (d : DriveNo) (f : Reservation → Reservation) :
    offerAt j (s.modResv d f) = offerAt j s := rfl
@[simp] theorem offerAt_modDrive (d : DriveNo) (f : Drive → Drive) : offerAt j (s.modDrive d f) = offerAt j s := rfl
@[simp] theorem offerAt_setArm (d : DriveNo) (a : ArmState) : offerAt j (s.setArm d a) = offerAt j s := rfl
@[simp] theorem offerAt_modSched (d : DriveNo) (f : Scheduler → Scheduler) :
    offerAt j (s.modSched d f) = offerAt j s := rfl
@[simp] theorem offerAt_setOrient (d : DriveNo) (o : Option Orient) : offerAt j (s.setOrient d o) = offerAt j s := rfl
@[simp] theorem offerAt_modBuffer (b : BufNo) (f : Buffer → Buffer) : offerAt j (s.modBuffer b f) = offerAt j s := rfl
@[simp] theorem offerAt_modTracks (d : DriveNo) (f : Tracks → Tracks) :
    offerAt j (s.modTracks d f) = offerAt j s := rfl
@[simp] theorem offerAt_modFence (d : DriveNo) (f : Fence → Fence) : offerAt j (s.modFence d f) = offerAt j s := rfl
@[simp] theorem offerAt_frame (l : LinkNo) (f : HostFrame) : offerAt j (s.frame l f) = offerAt j s := rfl
@[simp] theorem offerAt_order (d : DriveNo) (o : Order) : offerAt j (s.order d o) = offerAt j s := rfl
@[simp] theorem offerAt_later (ts : List Task) : offerAt j (s.later ts) = offerAt j s := rfl
@[simp] theorem offerAt_set_ctxWait (v : List LinkNo) : offerAt j { s with ctxWait := v } = offerAt j s := rfl
@[simp] theorem offerAt_set_path (v : Path) : offerAt j { s with path := v } = offerAt j s := rfl
@[simp] theorem offerAt_set_bufWait (v : List Waiter) : offerAt j { s with bufWait := v } = offerAt j s := rfl
@[simp] theorem offerAt_set_suspects (v : List Suspect) : offerAt j { s with suspects := v } = offerAt j s := rfl

/-- A port changed in a way that it offers nothing it did not offer before. -/
@[simp] theorem offerAt_modPort (l : LinkNo) (f : Port → Port)
    (h : ∀ p age, (f p).state = .offering age → p.state = .offering age) :
    offerAt j (s.modPort l f) = (offerAt j s ∨ mends j (State.modPort l f) s) :=
  keeps fun hs age ha => by
    rw [port_modPort] at ha
    split at ha
    · next e => exact hs age (e ▸ h _ _ ha)
    · exact hs age ha

/-- A set changed so that it still holds every age that may be on offer. -/
theorem offerAt_modPresent {j l : LinkNo} {f : Present → Present} {s : State} (hs : offerAt j s)
    (h : ∀ i ∈ (s.present.get l).items, (s.port l).state = .offering i.age →
      ∃ x ∈ (f (s.present.get l)).items, x.age = i.age) : offerAt j (s.modPresent l f) := by
  intro age ha
  obtain ⟨i, hi, hage⟩ := hs age ha
  rw [present_modPresent]
  split
  · next e =>
    subst e hage
    exact h i hi ha
  · exact ⟨i, hi, hage⟩

/-- What each application keeps, the whole keeps. -/
theorem offerAt_each {α : Type} {f : α → State → State} (xs : List α) {j : LinkNo} {s : State}
    (h : ∀ x t, offerAt j t → offerAt j (f x t)) (hs : offerAt j s) : offerAt j (each xs f s) :=
  each_keeps h xs s hs

theorem offerAt_ahead (ts : List Task) {f : State → State} {j : LinkNo} {s : State}
    (h : ∀ t, offerAt j t → offerAt j (f t)) (hs : offerAt j s) : offerAt j (State.ahead ts f s) :=
  h { s with work := [] } hs

/-! Presentation (chapter 3). -/

@[simp] theorem offerAt_choose (l : LinkNo) : offerAt j (choose l s) = (offerAt j s ∨ mends j (choose l) s) :=
  keeps fun h => by
    obtain hc | ⟨i, hi, hc⟩ := choose_cases l s
    · rwa [hc]
    · rw [hc]
      intro age ha
      rw [port_modPort] at ha
      split at ha
      · next e =>
        subst e
        cases ha
        exact ⟨i, hi, rfl⟩
      · exact h age ha

/-- A link that has entered IDLE offers what it has chosen, whatever it offered before. -/
theorem offerAt_goIdle_self (l : LinkNo) : offerAt l (goIdle l s) := by
  have h : offerAt l (s.modPort l fun p => { p with state := .idle }) := offerAt_of_state (by simp)
  simp [goIdle, h]

/-- A link enters IDLE: the law of the other links is as before. -/
theorem offerAt_goIdle_of {l j : LinkNo} {s : State} (h : j ≠ l → offerAt j s) : offerAt j (goIdle l s) := by
  by_cases e : j = l
  · exact e ▸ offerAt_goIdle_self s l
  · simp [goIdle, h e]

@[simp] theorem offerAt_goIdle (l : LinkNo) : offerAt j (goIdle l s) = (offerAt j s ∨ mends j (goIdle l) s) :=
  keeps fun h => offerAt_goIdle_of fun _ => h

@[simp] theorem offerAt_setFloor (l : LinkNo) (f : Fin 16) :
    offerAt j (setFloor l f s) = (offerAt j s ∨ mends j (setFloor l f) s) :=
  keeps fun h => by simp [setFloor, h]

/-- The items of another link are replaced. -/
theorem offerAt_setItems_other {j l : LinkNo} {s : State} (xs : List Item) (e : j ≠ l) :
    offerAt j (setItems l xs s) = offerAt j s := by
  unfold offerAt setItems
  rw [present_modPresent, if_neg e.symm]
  rfl

/-- The items are replaced by others that hold every age that may be on offer. -/
theorem offerAt_setItems {j l : LinkNo} {xs : List Item} {s : State} (hs : offerAt j s)
    (h : ∀ i ∈ (s.present.get l).items, onOffer s l i = true → ∃ x ∈ xs, x.age = i.age) :
    offerAt j (setItems l xs s) :=
  offerAt_modPresent hs fun i hi ho => h i hi (by simp [onOffer, ho])

/-- The item that overflow drops is one of those given (R51). -/
theorem victim_mem {level : Item → Fin 16} {xs : List Item} {v : Item} (h : victim level xs = some v) : v ∈ xs := by
  induction xs generalizing v with
  | nil => simp [victim] at h
  | cons x r ih =>
    cases hr : victim level r with
    | none => simp_all [victim]
    | some j =>
      have hj : j ∈ r := ih hr
      simp only [victim, hr] at h
      split at h <;> simp_all

/-- Overflow drops no item that is on offer (R51). -/
@[simp] theorem offerAt_joinSet (l : LinkNo) (b : ItemBody) :
    offerAt j (joinSet l b s) = (offerAt j s ∨ mends j (joinSet l b) s) :=
  keeps fun h => offerAt_modPresent h fun i hi ho => by
    refine ⟨i, ?_, rfl⟩
    dsimp only
    split
    · exact List.mem_append_left _ hi
    · split
      · next v hv =>
        have hn := victim_mem hv
        have hne : i ≠ v := by
          rintro rfl
          simp [onOffer, ho] at hn
        simp [hi, hne]
      · exact List.mem_append_left _ hi

/-- A change of items that keeps their ages keeps the law. -/
theorem offerAt_setItems_map {j l : LinkNo} {s : State} (f : Item → Item) (h : offerAt j s)
    (hf : ∀ i, (f i).age = i.age) : offerAt j (setItems l ((s.present.get l).items.map f) s) :=
  offerAt_setItems h fun i hi _ => ⟨f i, List.mem_map_of_mem hi, hf i⟩

@[simp] theorem offerAt_raise (l : LinkNo) (b : ItemBody) :
    offerAt j (raise l b s) = (offerAt j s ∨ mends j (raise l b) s) :=
  keeps fun h => by
    unfold raise
    dsimp only
    split
    · exact h
    · split
      · rw [offerAt_choose]
        exact .inl (offerAt_setItems_map _ h fun i => by split <;> rfl)
      · simp [h]

@[simp] theorem offerAt_raiseOn (ls : List LinkNo) (b : ItemBody) :
    offerAt j (raiseOn ls b s) = (offerAt j s ∨ mends j (raiseOn ls b) s) :=
  keeps fun h => offerAt_each ls (fun l t ht => by simp [ht]) h

@[simp] theorem offerAt_raiseDrive (d : DriveNo) (b : ItemBody) :
    offerAt j (raiseDrive d b s) = (offerAt j s ∨ mends j (raiseDrive d b) s) :=
  keeps fun h => by simp [raiseDrive, h]

/-- The item on offer is one of the set, and its age is the port's. -/
theorem offered_some {l : LinkNo} {i : Item} {s : State} (h : offered s l = some i) :
    (s.port l).state = .offering i.age ∧ i ∈ (s.present.get l).items := by
  unfold offered at h
  split at h
  · next age ha =>
    have hi : i.age = age := by simpa using List.find?_some h
    exact ⟨hi ▸ ha, List.mem_of_find?_eq_some h⟩
  · simp at h

/-- With no item on offer and the law of the link, the link is not OFFERING. -/
theorem offered_none {l : LinkNo} {s : State} (h : offerAt l s) (ho : offered s l = none) :
    ∀ age, (s.port l).state ≠ .offering age := by
  intro age ha
  obtain ⟨i, hi, hage⟩ := h age ha
  have hn : ∀ x ∈ (s.present.get l).items, x.age ≠ age := by simpa [offered, ha] using ho
  exact hn i hi hage

@[simp] theorem offerAt_withdraw (l : LinkNo) (b : ItemBody) :
    offerAt j (withdraw l b s) = (offerAt j s ∨ mends j (withdraw l b) s) :=
  keeps fun h => by
    unfold withdraw
    by_cases e : j = l
    · subst e
      split
      · next i hi =>
        obtain ⟨hp, hm⟩ := offered_some hi
        dsimp only
        split
        · exact offerAt_goIdle_self _ j
        · next hb =>
          refine offerAt_setItems h fun x _ hx => ⟨i, by simp [hm, hb], ?_⟩
          simpa [onOffer, hp] using hx
      · next hn => exact offerAt_of_state fun age => offered_none h hn age
    · split
      · dsimp only
        split <;> simp [offerAt_setItems_other _ e, h]
      · simp [offerAt_setItems_other _ e, h]

@[simp] theorem offerAt_endLevelOn (b : ItemBody) (l : LinkNo) :
    offerAt j (endLevelOn b l s) = (offerAt j s ∨ mends j (endLevelOn b l) s) :=
  keeps fun h => by
    refine offerAt_setItems h fun i hi ho => ⟨_, List.mem_map_of_mem (a := i) ?_, ?_⟩
    · simp [hi, ho]
    · split <;> rfl

@[simp] theorem offerAt_endLevel (b : ItemBody) :
    offerAt j (endLevel b s) = (offerAt j s ∨ mends j (endLevel b) s) :=
  keeps fun h => offerAt_each allLinks (fun l t ht => by simp [ht]) h

/-- The return of the offered item concerns its own link alone. -/
theorem offerAt_returnItem_other {j l : LinkNo} {s : State} (i : Item) (e : j ≠ l) :
    offerAt j (returnItem l i s) = offerAt j s := by
  unfold returnItem
  dsimp only
  (repeat' split) <;> simp [offerAt_setItems_other _ e]

@[simp] theorem offerAt_putOff (l : LinkNo) : offerAt j (putOff l s) = (offerAt j s ∨ mends j (putOff l) s) :=
  keeps fun h => by
    unfold putOff
    split
    · exact offerAt_goIdle_of fun e => by simp [offerAt_returnItem_other _ e, h]
    · exact h

/-- The set of another link is cleared. -/
theorem offerAt_clearSet_other {j l : LinkNo} {s : State} (e : j ≠ l) : offerAt j (clearSet l s) = offerAt j s :=
  offerAt_setItems_other [] e

@[simp] theorem offerAt_controllerFree : offerAt j (controllerFree s) = (offerAt j s ∨ mends j controllerFree s) :=
  keeps fun hk => by simp [controllerFree, hk]

@[simp] theorem offerAt_freeCtx (c : CtxNo) : offerAt j (freeCtx c s) = (offerAt j s ∨ mends j (freeCtx c) s) :=
  keeps fun hk => by simp [freeCtx, hk]

@[simp] theorem offerAt_dataLost (b : BufNo) (xs : List SectorNo) :
    offerAt j (dataLost b xs s) = (offerAt j s ∨ mends j (dataLost b xs) s) :=
  keeps fun hk => by unfold dataLost; split <;> simp [hk]

/-! Reservations (chapter 4). -/

@[simp] theorem offerAt_handOff (d : DriveNo) : offerAt j (handOff d s) = (offerAt j s ∨ mends j (handOff d) s) :=
  keeps fun hk => by unfold handOff; split <;> simp [hk]

@[simp] theorem offerAt_clearHolder (d : DriveNo) :
    offerAt j (clearHolder d s) = (offerAt j s ∨ mends j (clearHolder d) s) :=
  keeps fun hk => by simp [clearHolder, hk]

@[simp] theorem offerAt_leaveWait (l : LinkNo) (d : DriveNo) : offerAt j (leaveWait l d s) = offerAt j s := rfl

@[simp] theorem offerAt_reserve (l : LinkNo) (d : DriveNo) (wait : Bool) :
    offerAt j (reserve l d wait s) = offerAt j s := by
  unfold reserve
  (repeat' split) <;> rfl

@[simp] theorem offerAt_release (l : LinkNo) (d : DriveNo) :
    offerAt j (release l d s) = (offerAt j s ∨ mends j (release l d) s) :=
  keeps fun hk => by unfold release; (repeat' split) <;> simp [hk]

@[simp] theorem offerAt_takeAway (l : LinkNo) (d : DriveNo) :
    offerAt j (takeAway l d s) = (offerAt j s ∨ mends j (takeAway l d) s) :=
  keeps fun hk => by simp [takeAway, hk]

@[simp] theorem offerAt_losePath (l : LinkNo) (d : DriveNo) :
    offerAt j (losePath l d s) = (offerAt j s ∨ mends j (losePath l d) s) :=
  keeps fun hk => by unfold losePath; split <;> simp [hk]

@[simp] theorem offerAt_loseReservation (l : LinkNo) (d : DriveNo) :
    offerAt j (loseReservation l d s) = (offerAt j s ∨ mends j (loseReservation l d) s) :=
  keeps fun hk => by unfold loseReservation; split <;> simp [hk]

@[simp] theorem offerAt_loseReservations (l : LinkNo) :
    offerAt j (loseReservations l s) = (offerAt j s ∨ mends j (loseReservations l) s) :=
  keeps fun hk => offerAt_each allDrives (fun d t ht => by simp [ht]) hk

/-! The Buffer Store (chapter 7). -/

@[simp] theorem offerAt_joinQueue (d : DriveNo) (w : Work) (home : HomeTrack) :
    offerAt j (joinQueue d w home s) = offerAt j s := by
  unfold joinQueue
  split <;> rfl

@[simp] theorem offerAt_leaveQueue (d : DriveNo) (w : Work) : offerAt j (leaveQueue d w s) = offerAt j s := rfl

@[simp] theorem offerAt_giveItem (b : BufNo) : offerAt j (giveItem b s) = offerAt j s := by
  unfold giveItem
  (repeat' split) <;> simp

@[simp] theorem offerAt_joinTogether (bs : List BufNo) :
    offerAt j (joinTogether bs s) = (offerAt j s ∨ mends j (joinTogether bs) s) :=
  keeps fun hk => offerAt_each bs (fun b t ht => by simp [ht]) hk

@[simp] theorem offerAt_joinInTurn (bs : List BufNo) :
    offerAt j (joinInTurn bs s) = (offerAt j s ∨ mends j (joinInTurn bs) s) :=
  keeps fun hk => offerAt_each bs (fun b t ht => by split <;> simp [ht]) hk

@[simp] theorem offerAt_flushItems (d : DriveNo) :
    offerAt j (flushItems d s) = (offerAt j s ∨ mends j (flushItems d) s) :=
  keeps fun hk => by simp [flushItems, hk]

theorem offerAt_throughItems {join : List BufNo → State → State} {j : LinkNo} {s : State} (d : DriveNo)
    (h : ∀ bs t, offerAt j t → offerAt j (join bs t)) (hk : offerAt j s) : offerAt j (throughItems join d s) :=
  h _ s hk

@[simp] theorem offerAt_reclaim : offerAt j (reclaim s) = offerAt j s := by
  unfold reclaim
  (repeat' split) <;> simp

@[simp] theorem offerAt_unlist (gone : Waiter → Bool) : offerAt j (unlist gone s) = offerAt j s := rfl

@[simp] theorem offerAt_reclaimCheck : offerAt j (reclaimCheck s) = offerAt j s := by
  unfold reclaimCheck
  (repeat' split) <;> simp

@[simp] theorem offerAt_touch (b : BufNo) : offerAt j (touch b s) = offerAt j s := rfl

@[simp] theorem offerAt_emptyBuffer (b : BufNo) : offerAt j (emptyBuffer b s) = offerAt j s := rfl

@[simp] theorem offerAt_suspendCtx (c : CtxNo) :
    offerAt j (suspendCtx c s) = (offerAt j s ∨ mends j (suspendCtx c) s) :=
  keeps fun hk => by unfold suspendCtx; (repeat' split) <;> simp [hk]

@[simp] theorem offerAt_suspendStaging (b : BufNo) :
    offerAt j (suspendStaging b s) = (offerAt j s ∨ mends j (suspendStaging b) s) :=
  keeps fun hk => offerAt_each _ (fun c t ht => by simp [ht]) hk

@[simp] theorem offerAt_stage (c : CtxNo) : offerAt j (stage c s) = (offerAt j s ∨ mends j (stage c) s) :=
  keeps fun hk => by unfold stage; (repeat' split) <;> simp [hk]

@[simp] theorem offerAt_resumeStaging (b : BufNo) :
    offerAt j (resumeStaging b s) = (offerAt j s ∨ mends j (resumeStaging b) s) :=
  keeps fun hk => by
    unfold resumeStaging
    split
    · exact hk
    · exact offerAt_each _ (fun c t ht => by simp [ht]) hk

@[simp] theorem offerAt_assign (who : Requester) (d : DriveNo) (b : BufNo) :
    offerAt j (assign who d b s) = (offerAt j s ∨ mends j (assign who d b) s) :=
  keeps fun hk => by unfold assign; split <;> simp [hk]

theorem offerAt_allocate {w : Waiter} {j : LinkNo} {s t : State} (h : allocate w s = some t) (hk : offerAt j s) :
    offerAt j t := by
  unfold allocate at h
  (repeat' split at h) <;> simp_all only [Option.some.injEq, reduceCtorEq] <;> subst h <;> simp [hk]

@[simp] theorem offerAt_request (w : Waiter) : offerAt j (request w s) = (offerAt j s ∨ mends j (request w) s) :=
  keeps fun hk => by
    unfold request
    split
    · next t ht => exact offerAt_allocate ht hk
    · simp [hk]

@[simp] theorem offerAt_serveWaiter (w : Waiter) :
    offerAt j (serveWaiter w s) = (offerAt j s ∨ mends j (serveWaiter w) s) :=
  keeps fun hk => by
    unfold serveWaiter
    cases ht : allocate w s with
    | none => exact hk
    | some t => exact offerAt_allocate ht hk

theorem offerAt_serveTimes {j : LinkNo} (n : Nat) : ∀ {s : State}, offerAt j s → offerAt j (serveTimes n s) := by
  induction n with
  | zero => exact fun hk => hk
  | succ n ih =>
    intro s hk
    unfold serveTimes
    split
    · exact hk
    · split
      · exact ih (offerAt_each _ (fun w t ht => by simp [ht]) hk)
      · exact hk

@[simp] theorem offerAt_serve : offerAt j (serve s) = (offerAt j s ∨ mends j serve s) :=
  keeps fun hk => offerAt_serveTimes _ hk

@[simp] theorem offerAt_flushTest (d : DriveNo) :
    offerAt j (flushTest d s) = (offerAt j s ∨ mends j (flushTest d) s) :=
  keeps fun hk => by
    unfold flushTest
    split
    · exact hk
    · exact offerAt_each _ (fun c t ht => by simp [ht]) hk

@[simp] theorem offerAt_emptyOf (d : DriveNo) (b : BufNo) :
    offerAt j (emptyOf d b s) = (offerAt j s ∨ mends j (emptyOf d b) s) :=
  keeps fun hk => by simp [emptyOf, hk]

@[simp] theorem offerAt_retainRule (b : BufNo) :
    offerAt j (retainRule b s) = (offerAt j s ∨ mends j (retainRule b) s) :=
  keeps fun hk => by unfold retainRule; (repeat' split) <;> simp [hk]

@[simp] theorem offerAt_afterUnpin (b : BufNo) :
    offerAt j (afterUnpin b s) = (offerAt j s ∨ mends j (afterUnpin b) s) :=
  keeps fun hk => by unfold afterUnpin; dsimp only; (repeat' split) <;> simp [hk]

@[simp] theorem offerAt_leftDirty (b : BufNo) : offerAt j (leftDirty b s) = (offerAt j s ∨ mends j (leftDirty b) s) :=
  keeps fun hk => by unfold leftDirty; dsimp only; (repeat' split) <;> simp [hk]

@[simp] theorem offerAt_noteStored (b : BufNo) (x : SectorNo) : offerAt j (noteStored b x s) = offerAt j s := rfl

@[simp] theorem offerAt_storeCell (b : BufNo) (x : SectorNo) (data : List Byte) (dirty : Bool) :
    offerAt j (storeCell b x data dirty s) = offerAt j s := rfl

@[simp] theorem offerAt_storeFrame (l : LinkNo) (b : BufNo) (x : SectorNo) (data : List Byte) :
    offerAt j (storeFrame l b x data s) = (offerAt j s ∨ mends j (storeFrame l b x data) s) :=
  keeps fun hk => by unfold storeFrame; dsimp only; (repeat' split) <;> simp [hk]

@[simp] theorem offerAt_cleanSector (b : BufNo) (x : SectorNo) :
    offerAt j (cleanSector b x s) = (offerAt j s ∨ mends j (cleanSector b x) s) :=
  keeps fun hk => by unfold cleanSector; dsimp only; (repeat' split) <;> simp [hk]

@[simp] theorem offerAt_capture (k : Capture) : offerAt j (capture k s) = offerAt j s := by
  unfold capture
  split <;> rfl

@[simp] theorem offerAt_parityFailure (b : BufNo) (x : SectorNo) (toDrive : Bool) (by_ : CaptureBy) :
    offerAt j (parityFailure b x toDrive by_ s) = (offerAt j s ∨ mends j (parityFailure b x toDrive by_) s) :=
  keeps fun hk => by unfold parityFailure; dsimp only; (repeat' split) <;> simp [hk]

@[simp] theorem offerAt_unpin (c : CtxNo) : offerAt j (unpin c s) = (offerAt j s ∨ mends j (unpin c) s) :=
  keeps fun hk => by unfold unpin; split <;> simp [hk]

@[simp] theorem offerAt_clearRelocPin (b : BufNo) :
    offerAt j (clearRelocPin b s) = (offerAt j s ∨ mends j (clearRelocPin b) s) :=
  keeps fun hk => by simp [clearRelocPin, hk]

@[simp] theorem offerAt_destageEnded (d : DriveNo) (b : BufNo) :
    offerAt j (destageEnded d b s) = (offerAt j s ∨ mends j (destageEnded d b) s) :=
  keeps fun hk => by unfold destageEnded; dsimp only; (repeat' split) <;> simp [hk]

@[simp] theorem offerAt_destageStopped (b : BufNo) :
    offerAt j (destageStopped b s) = (offerAt j s ∨ mends j (destageStopped b) s) :=
  keeps fun hk => by unfold destageStopped; dsimp only; (repeat' split) <;> simp [hk]

/-! Alternate and suspect tracks (chapters 8 and 9). -/

@[simp] theorem offerAt_evalSpares (d : DriveNo) :
    offerAt j (evalSpares d s) = (offerAt j s ∨ mends j (evalSpares d) s) :=
  keeps fun hk => by unfold evalSpares; dsimp only; (repeat' split) <;> simp [hk]

@[simp] theorem offerAt_endSparesLow (d : DriveNo) :
    offerAt j (endSparesLow d s) = (offerAt j s ∨ mends j (endSparesLow d) s) :=
  keeps fun hk => by unfold endSparesLow; split <;> simp [hk]

@[simp] theorem offerAt_staleMapCursors (d : DriveNo) :
    offerAt j (staleMapCursors d s) = (offerAt j s ∨ mends j (staleMapCursors d) s) :=
  keeps fun hk => offerAt_each allLinks (fun l t ht => by simp [ht]) hk

@[simp] theorem offerAt_staleSuspectCursors :
    offerAt j (staleSuspectCursors s) = (offerAt j s ∨ mends j staleSuspectCursors s) :=
  keeps fun hk => offerAt_each allLinks (fun l t ht => by simp [ht]) hk

@[simp] theorem offerAt_removeSuspects (gone : Suspect → Bool) :
    offerAt j (removeSuspects gone s) = (offerAt j s ∨ mends j (removeSuspects gone) s) :=
  keeps fun hk => by unfold removeSuspects; split <;> simp [hk]

@[simp] theorem offerAt_modSuspect (d : DriveNo) (h : HomeTrack) (f : Suspect → Suspect) :
    offerAt j (modSuspect d h f s) = offerAt j s := rfl

@[simp] theorem offerAt_report (d : DriveNo) (h : HomeTrack) :
    offerAt j (report d h s) = (offerAt j s ∨ mends j (report d h) s) :=
  keeps fun hk => by unfold report; (repeat' split) <;> simp [hk]

@[simp] theorem offerAt_threshold (d : DriveNo) (h : HomeTrack) :
    offerAt j (threshold d h s) = (offerAt j s ∨ mends j (threshold d h) s) :=
  keeps fun hk => by unfold threshold; (repeat' split) <;> simp [hk]

@[simp] theorem offerAt_recordFree (d : DriveNo) :
    offerAt j (recordFree d s) = (offerAt j s ∨ mends j (recordFree d) s) :=
  keeps fun hk => by
    unfold recordFree
    split
    · exact hk
    · split
      · exact hk
      · split
        · simp [hk]
        · exact offerAt_each _ (fun e t ht => by simp [ht]) hk

@[simp] theorem offerAt_relocOutcome (d : DriveNo) (h : HomeTrack) (o : RelocOutcome) :
    offerAt j (relocOutcome d h o s) = (offerAt j s ∨ mends j (relocOutcome d h o) s) :=
  keeps fun hk => by unfold relocOutcome; dsimp only; (repeat' split) <;> simp [hk]

@[simp] theorem offerAt_setSpare (d : DriveNo) (i : SpareNo) (k : SpareState) :
    offerAt j (setSpare d i k s) = offerAt j s := rfl

@[simp] theorem offerAt_modReloc (d : DriveNo) (f : Relocation → Relocation) :
    offerAt j (modReloc d f s) = offerAt j s := rfl

@[simp] theorem offerAt_removeRecord (d : DriveNo) (r : Relocation) :
    offerAt j (removeRecord d r s) = (offerAt j s ∨ mends j (removeRecord d r) s) :=
  keeps fun hk => by unfold removeRecord; split <;> simp [hk]

@[simp] theorem offerAt_createRelocation (d : DriveNo) (h : HomeTrack) :
    offerAt j (createRelocation d h s) = (offerAt j s ∨ mends j (createRelocation d h) s) :=
  keeps fun hk => by unfold createRelocation; dsimp only; (repeat' split) <;> simp [hk]

@[simp] theorem offerAt_beginAgain (d : DriveNo) : offerAt j (beginAgain d s) = offerAt j s := by
  unfold beginAgain
  (repeat' split) <;> rfl

@[simp] theorem offerAt_holdBuffer (d : DriveNo) : offerAt j (holdBuffer d s) = offerAt j s := by
  unfold holdBuffer
  (repeat' split) <;> rfl

@[simp] theorem offerAt_relocFailed (d : DriveNo) (r : Relocation) :
    offerAt j (relocFailed d r s) = (offerAt j s ∨ mends j (relocFailed d r) s) :=
  keeps fun hk => by simp [relocFailed, hk]

@[simp] theorem offerAt_takeSpare (d : DriveNo) :
    offerAt j (takeSpare d s) = (offerAt j s ∨ mends j (takeSpare d) s) :=
  keeps fun hk => by unfold takeSpare; (repeat' split) <;> simp [hk]

@[simp] theorem offerAt_readOldEnds (d : DriveNo) (left : List SectorNo) :
    offerAt j (readOldEnds d left s) = (offerAt j s ∨ mends j (readOldEnds d left) s) :=
  keeps fun hk => by simp [readOldEnds, hk]

@[simp] theorem offerAt_spareFails (d : DriveNo) :
    offerAt j (spareFails d s) = (offerAt j s ∨ mends j (spareFails d) s) :=
  keeps fun hk => by unfold spareFails; (repeat' split) <;> simp [hk]

@[simp] theorem offerAt_writeNewEnds (d : DriveNo) : offerAt j (writeNewEnds d s) = offerAt j s := rfl

@[simp] theorem offerAt_commit (d : DriveNo) : offerAt j (commit d s) = (offerAt j s ∨ mends j (commit d) s) :=
  keeps fun hk => by unfold commit; (repeat' split) <;> simp [hk]

@[simp] theorem offerAt_abandon (d : DriveNo) : offerAt j (abandon d s) = (offerAt j s ∨ mends j (abandon d) s) :=
  keeps fun hk => by unfold abandon; (repeat' split) <;> simp [hk]

@[simp] theorem offerAt_written (d : DriveNo) (h : HomeTrack) (x : SectorNo) :
    offerAt j (written d h x s) = offerAt j s := rfl

/-! The arm (chapters 1 and 5). -/

@[simp] theorem offerAt_startRecal (d : DriveNo) (why : RecalReason) :
    offerAt j (startRecal d why s) = offerAt j s := rfl

@[simp] theorem offerAt_clearGrant (d : DriveNo) : offerAt j (clearGrant d s) = offerAt j s := rfl

@[simp] theorem offerAt_dropSelection (d : DriveNo) : offerAt j (dropSelection d s) = offerAt j s := rfl

theorem offerAt_applyPolicy {join : List BufNo → State → State} {j : LinkNo} {s : State} (d : DriveNo)
    (h : ∀ bs t, offerAt j t → offerAt j (join bs t)) (hk : offerAt j s) : offerAt j (applyPolicy join d s) := by
  unfold applyPolicy
  dsimp only
  (repeat' split)
  · exact hk
  · exact offerAt_throughItems d h hk
  · exact hk
  · rw [offerAt_evalSpares]
    exact .inl (offerAt_throughItems d h hk)
  · simp [hk]

@[simp] theorem offerAt_applyPolicy_together (d : DriveNo) :
    offerAt j (applyPolicy joinTogether d s) = (offerAt j s ∨ mends j (applyPolicy joinTogether d) s) :=
  keeps (offerAt_applyPolicy d fun bs t ht => by simp [ht])

@[simp] theorem offerAt_applyPolicy_inTurn (d : DriveNo) :
    offerAt j (applyPolicy joinInTurn d s) = (offerAt j s ∨ mends j (applyPolicy joinInTurn d) s) :=
  keeps (offerAt_applyPolicy d fun bs t ht => by simp [ht])

@[simp] theorem offerAt_enterIdle (d : DriveNo) :
    offerAt j (enterIdle d s) = (offerAt j s ∨ mends j (enterIdle d) s) :=
  keeps fun hk => by unfold enterIdle; split <;> simp [hk]

@[simp] theorem offerAt_armIdle (d : DriveNo) : offerAt j (armIdle d s) = (offerAt j s ∨ mends j (armIdle d) s) :=
  keeps fun hk => by unfold armIdle; split <;> simp [hk]

@[simp] theorem offerAt_givePasses (d : DriveNo) (i : QueueItem) : offerAt j (givePasses d i s) = offerAt j s := by
  unfold givePasses
  split <;> rfl

@[simp] theorem offerAt_orientTo (d : DriveNo) (o : Orient) : offerAt j (orientTo d o s) = offerAt j s := rfl

@[simp] theorem offerAt_endDestage (d : DriveNo) (b : BufNo) :
    offerAt j (endDestage d b s) = (offerAt j s ∨ mends j (endDestage d b) s) :=
  keeps fun hk => offerAt_ahead _ (fun t ht => by simp [ht]) hk

@[simp] theorem offerAt_destageNext (d : DriveNo) (b : BufNo) (home : HomeTrack) (after : Option SectorNo) :
    offerAt j (destageNext d b home after s) = (offerAt j s ∨ mends j (destageNext d b home after) s) :=
  keeps fun hk => by unfold destageNext; split <;> simp [hk]

@[simp] theorem offerAt_relocArrives (d : DriveNo) (phase : RelocPhase) :
    offerAt j (relocArrives d phase s) = (offerAt j s ∨ mends j (relocArrives d phase) s) :=
  keeps fun hk => by unfold relocArrives; dsimp only; (repeat' split) <;> simp [hk]

@[simp] theorem offerAt_arrived (d : DriveNo) : offerAt j (arrived d s) = (offerAt j s ∨ mends j (arrived d) s) :=
  keeps fun hk => by unfold arrived; (repeat' split) <;> simp [hk]

@[simp] theorem offerAt_startSeek (d : DriveNo) :
    offerAt j (startSeek d s) = (offerAt j s ∨ mends j (startSeek d) s) :=
  keeps fun hk => by unfold startSeek; (repeat' split) <;> simp [hk]

@[simp] theorem offerAt_engage (d : DriveNo) (w : Work) :
    offerAt j (engage d w s) = (offerAt j s ∨ mends j (engage d w) s) :=
  keeps fun hk => by unfold engage; split <;> simp [hk]

@[simp] theorem offerAt_selectItem (d : DriveNo) (cur : Fin 604) (i : QueueItem) :
    offerAt j (selectItem d cur i s) = (offerAt j s ∨ mends j (selectItem d cur i) s) :=
  keeps fun hk => by unfold selectItem; dsimp only; (repeat' split) <;> simp [hk]

@[simp] theorem offerAt_select (d : DriveNo) : offerAt j (select d s) = (offerAt j s ∨ mends j (select d) s) :=
  keeps fun hk => by unfold select; (repeat' split) <;> simp [hk]

@[simp] theorem offerAt_settleEnds (d : DriveNo) :
    offerAt j (settleEnds d s) = (offerAt j s ∨ mends j (settleEnds d) s) :=
  keeps fun hk => by unfold settleEnds; (repeat' split) <;> simp [hk]

@[simp] theorem offerAt_settleTick (d : DriveNo) :
    offerAt j (settleTick d s) = (offerAt j s ∨ mends j (settleTick d) s) :=
  keeps fun hk => by unfold settleTick; (repeat' split) <;> simp [hk]

@[simp] theorem offerAt_destageCut (d : DriveNo) (k : Selection) (b : BufNo) :
    offerAt j (destageCut d k b s) = offerAt j s := by
  unfold destageCut
  split <;> rfl

/-! Chains (chapter 2). -/

@[simp] theorem offerAt_withdrawFrom (c : CtxNo) (x : Context) :
    offerAt j (withdrawFrom c x s) = (offerAt j s ∨ mends j (withdrawFrom c x) s) :=
  keeps fun hk => by unfold withdrawFrom; dsimp only; (repeat' split) <;> simp [hk]

theorem offerAt_beginEnding {arm : State → State} {j : LinkNo} {s : State} (c : CtxNo) (cond : Condition)
    (entry : Option Nat) (sectors : List SectorNo) (h : ∀ t, offerAt j t → offerAt j (arm t)) (hk : offerAt j s) :
    offerAt j (beginEnding c cond entry sectors arm s) := by
  unfold beginEnding
  split
  · dsimp only
    split
    · exact h _ (by simp [hk])
    · simp [hk]
  · exact hk

theorem offerAt_endChain {arm : State → State} {j : LinkNo} {s : State} (c : CtxNo) (cond : Condition)
    (entry : Option Nat) (sectors : List SectorNo) (h : ∀ t, offerAt j t → offerAt j (arm t)) (hk : offerAt j s) :
    offerAt j (endChain c cond entry sectors arm s) := by
  unfold endChain
  (repeat' split) <;> simp [offerAt_beginEnding _ _ _ _ h, hk]

/-- A chain that ends with no course for the arm. -/
@[simp] theorem offerAt_endChain_id (c : CtxNo) (cond : Condition) (entry : Option Nat) (sectors : List SectorNo) :
    offerAt j (endChain c cond entry sectors id s) =
      (offerAt j s ∨ mends j (endChain c cond entry sectors id) s) :=
  keeps (offerAt_endChain c cond entry sectors fun _ ht => ht)

@[simp] theorem offerAt_raiseEnding (c : CtxNo) :
    offerAt j (raiseEnding c s) = (offerAt j s ∨ mends j (raiseEnding c) s) :=
  keeps fun hk => by unfold raiseEnding; (repeat' split) <;> simp [hk]

@[simp] theorem offerAt_endAtEntry (c : CtxNo) (cond : Condition) (sectors : List SectorNo) :
    offerAt j (endAtEntry c cond sectors s) = (offerAt j s ∨ mends j (endAtEntry c cond sectors) s) :=
  keeps fun hk => by
    unfold endAtEntry
    split
    · exact offerAt_endChain _ _ _ _ (fun t ht => by simp [ht]) hk
    · exact hk

@[simp] theorem offerAt_detachArm (d : DriveNo) :
    offerAt j (detachArm d s) = (offerAt j s ∨ mends j (detachArm d) s) :=
  keeps fun hk => by unfold detachArm; split <;> simp [hk]

@[simp] theorem offerAt_withdrawQuietly (c : CtxNo) :
    offerAt j (withdrawQuietly c s) = (offerAt j s ∨ mends j (withdrawQuietly c) s) :=
  keeps fun hk => by unfold withdrawQuietly; (repeat' split) <;> simp [hk]

@[simp] theorem offerAt_freeWithdrawn (c : CtxNo) :
    offerAt j (freeWithdrawn c s) = (offerAt j s ∨ mends j (freeWithdrawn c) s) :=
  keeps fun hk => by simp [freeWithdrawn, hk]

@[simp] theorem offerAt_freeContext (c : CtxNo) :
    offerAt j (freeContext c s) = (offerAt j s ∨ mends j (freeContext c) s) :=
  keeps fun hk => by unfold freeContext; split <;> simp [hk]

@[simp] theorem offerAt_giveUpArm (c : CtxNo) (x : Context) :
    offerAt j (giveUpArm c x s) = (offerAt j s ∨ mends j (giveUpArm c x) s) :=
  keeps fun hk => by unfold giveUpArm; split <;> simp [hk]

@[simp] theorem offerAt_needArm (c : CtxNo) (x : Context) : offerAt j (needArm c x s) = offerAt j s := by
  unfold needArm
  (repeat' split) <;> simp

@[simp] theorem offerAt_advance (c : CtxNo) : offerAt j (advance c s) = offerAt j s := rfl

@[simp] theorem offerAt_walkRead (c : CtxNo) (x : Context) (first : SectorNo) (count : Nat) :
    offerAt j (walkRead c x first count s) = (offerAt j s ∨ mends j (walkRead c x first count) s) :=
  keeps fun hk => by unfold walkRead; dsimp only; (repeat' split) <;> simp [hk]

@[simp] theorem offerAt_walkWrite (c : CtxNo) (x : Context) (first : SectorNo) (count : Nat) :
    offerAt j (walkWrite c x first count s) = offerAt j s := by
  unfold walkWrite
  (repeat' split) <;> simp

@[simp] theorem offerAt_walk (c : CtxNo) : offerAt j (walk c s) = (offerAt j s ∨ mends j (walk c) s) :=
  keeps fun hk => by unfold walk; (repeat' split) <;> simp [hk]

@[simp] theorem offerAt_startStep (c : CtxNo) : offerAt j (startStep c s) = (offerAt j s ∨ mends j (startStep c) s) :=
  keeps fun hk => by unfold startStep; (repeat' split) <;> simp [hk]

@[simp] theorem offerAt_assigned (c : CtxNo) : offerAt j (assigned c s) = (offerAt j s ∨ mends j (assigned c) s) :=
  keeps fun hk => by unfold assigned; (repeat' split) <;> simp [hk]

@[simp] theorem offerAt_endStep (c : CtxNo) : offerAt j (endStep c s) = (offerAt j s ∨ mends j (endStep c) s) :=
  keeps fun hk => by simp [endStep, hk]

@[simp] theorem offerAt_nextStep (c : CtxNo) : offerAt j (nextStep c s) = (offerAt j s ∨ mends j (nextStep c) s) :=
  keeps fun hk => by unfold nextStep; (repeat' split) <;> simp [hk]

@[simp] theorem offerAt_readDone (c : CtxNo) : offerAt j (readDone c s) = (offerAt j s ∨ mends j (readDone c) s) :=
  keeps fun hk => by unfold readDone; (repeat' split) <;> simp [hk]

@[simp] theorem offerAt_deliver (c : CtxNo) : offerAt j (deliver c s) = (offerAt j s ∨ mends j (deliver c) s) :=
  keeps fun hk => by unfold deliver; dsimp only; (repeat' split) <;> simp [hk]

@[simp] theorem offerAt_flushWait (c : CtxNo) : offerAt j (flushWait c s) = (offerAt j s ∨ mends j (flushWait c) s) :=
  keeps fun hk => by unfold flushWait; (repeat' split) <;> simp [hk]

/-! Passes (chapter 6). -/

@[simp] theorem offerAt_modPass (f : Pass → Pass) : offerAt j (modPass f s) = offerAt j s := rfl

@[simp] theorem offerAt_clearDropped (d : DriveNo) (p : Pass) :
    offerAt j (clearDropped d p s) = (offerAt j s ∨ mends j (clearDropped d p) s) :=
  keeps fun hk => by unfold clearDropped; dsimp only; (repeat' split) <;> simp [hk]

@[simp] theorem offerAt_endDropped (d : DriveNo) (p : Pass) :
    offerAt j (endDropped d p s) = (offerAt j s ∨ mends j (endDropped d p) s) :=
  keeps fun hk => by simp [endDropped, hk]

@[simp] theorem offerAt_stopStep (d : DriveNo) (c : CtxNo) (cond : Condition) (x : SectorNo) (before : List Task) :
    offerAt j (stopStep d c cond x before s) = offerAt j s := by
  unfold stopStep
  split <;> rfl

@[simp] theorem offerAt_stopFault (d : DriveNo) (p : Pass) (x : SectorNo) :
    offerAt j (stopFault d p x s) = (offerAt j s ∨ mends j (stopFault d p x) s) :=
  keeps fun hk => by unfold stopFault; (repeat' split) <;> simp [hk]

@[simp] theorem offerAt_withhold (d : DriveNo) (p : Pass) (x : SectorNo) :
    offerAt j (withhold d p x s) = (offerAt j s ∨ mends j (withhold d p x) s) :=
  keeps fun hk => by unfold withhold; (repeat' split) <;> simp [hk]

@[simp] theorem offerAt_beginSector (d : DriveNo) (p : Pass) :
    offerAt j (beginSector d p s) = (offerAt j s ∨ mends j (beginSector d p) s) :=
  keeps fun hk => by unfold beginSector; dsimp only; (repeat' split) <;> simp [hk]

@[simp] theorem offerAt_grantPass (d : DriveNo) (o : Orient) :
    offerAt j (grantPass d o s) = (offerAt j s ∨ mends j (grantPass d o) s) :=
  keeps fun hk => by unfold grantPass cancelBooking; dsimp only; (repeat' split) <;> simp [hk]

@[simp] theorem offerAt_miss (d : DriveNo) (o : Orient) : offerAt j (miss d o s) = offerAt j s := by
  unfold miss
  dsimp only
  split <;> rfl

@[simp] theorem offerAt_claim (d : DriveNo) (x : SectorNo) :
    offerAt j (claim d x s) = (offerAt j s ∨ mends j (claim d x) s) :=
  keeps fun hk => by unfold claim; (repeat' split) <;> simp [hk]

@[simp] theorem offerAt_retryPass (d : DriveNo) (o : Orient) (left : List SectorNo) :
    offerAt j (retryPass d o left s) = offerAt j s := rfl

@[simp] theorem offerAt_finishPass (d : DriveNo) (p : Pass) :
    offerAt j (finishPass d p s) = (offerAt j s ∨ mends j (finishPass d p) s) :=
  keeps fun hk => by unfold finishPass; dsimp only; (repeat' split) <;> simp [hk]

@[simp] theorem offerAt_satisfied (d : DriveNo) (x : SectorNo) : offerAt j (satisfied d x s) = offerAt j s := rfl

@[simp] theorem offerAt_takeWritten (d : DriveNo) (p : Pass) (x : SectorNo) :
    offerAt j (takeWritten d p x s) = (offerAt j s ∨ mends j (takeWritten d p x) s) :=
  keeps fun hk => by unfold takeWritten; (repeat' split) <;> simp [hk]

@[simp] theorem offerAt_afterResult (d : DriveNo) :
    offerAt j (afterResult d s) = (offerAt j s ∨ mends j (afterResult d) s) :=
  keeps fun hk => by unfold afterResult; dsimp only; (repeat' split) <;> simp [hk]

@[simp] theorem offerAt_takeRead (d : DriveNo) (p : Pass) (x : SectorNo) (data : Option (List Byte)) :
    offerAt j (takeRead d p x data s) = offerAt j s := by
  unfold takeRead
  dsimp only
  (repeat' split) <;> simp

@[simp] theorem offerAt_takeNext (d : DriveNo) (r : PassResult) :
    offerAt j (takeNext d r s) = (offerAt j s ∨ mends j (takeNext d r) s) :=
  keeps fun hk => by unfold takeNext; dsimp only; (repeat' split) <;> simp [hk]

@[simp] theorem offerAt_sectorResult (d : DriveNo) (sec : SectorNo) (r : PassResult) :
    offerAt j (sectorResult d sec r s) = (offerAt j s ∨ mends j (sectorResult d sec r) s) :=
  keeps fun hk => by unfold sectorResult; (repeat' split) <;> simp [hk]

@[simp] theorem offerAt_closeSector (d : DriveNo) :
    offerAt j (closeSector d s) = (offerAt j s ∨ mends j (closeSector d) s) :=
  keeps fun hk => by unfold closeSector; dsimp only; (repeat' split) <;> simp [hk]

/-! Fences (chapter 10). -/

@[simp] theorem offerAt_sendSafeState (d : DriveNo) :
    offerAt j (sendSafeState d s) = (offerAt j s ∨ mends j (sendSafeState d) s) :=
  keeps fun hk => by unfold sendSafeState; split <;> simp [hk]

@[simp] theorem offerAt_cutPass (d : DriveNo) : offerAt j (cutPass d s) = (offerAt j s ∨ mends j (cutPass d) s) :=
  keeps fun hk => by unfold cutPass; (repeat' split) <;> simp [hk]

@[simp] theorem offerAt_enterFenced (d : DriveNo) :
    offerAt j (enterFenced d s) = (offerAt j s ∨ mends j (enterFenced d) s) :=
  keeps fun hk => by simp [enterFenced, hk]

@[simp] theorem offerAt_fenceArm (d : DriveNo) : offerAt j (fenceArm d s) = (offerAt j s ∨ mends j (fenceArm d) s) :=
  keeps fun hk => by unfold fenceArm; split <;> simp [hk]

@[simp] theorem offerAt_fenceWork (d : DriveNo) (k : Option Selection) :
    offerAt j (fenceWork d k s) = (offerAt j s ∨ mends j (fenceWork d k) s) :=
  keeps fun hk => by unfold fenceWork; (repeat' split) <;> simp [hk]

@[simp] theorem offerAt_actOfFencing (d : DriveNo) :
    offerAt j (actOfFencing d s) = (offerAt j s ∨ mends j (actOfFencing d) s) :=
  keeps fun hk => by simp [actOfFencing, hk]

@[simp] theorem offerAt_fenceTest (d : DriveNo) :
    offerAt j (fenceTest d s) = (offerAt j s ∨ mends j (fenceTest d) s) :=
  keeps fun hk => by unfold fenceTest; dsimp only; (repeat' split) <;> simp [hk]

@[simp] theorem offerAt_clearFlag (d : DriveNo) : offerAt j (clearFlag d s) = offerAt j s := rfl

@[simp] theorem offerAt_autoReleaseTest (d : DriveNo) :
    offerAt j (autoReleaseTest d s) = (offerAt j s ∨ mends j (autoReleaseTest d) s) :=
  keeps fun hk => by unfold autoReleaseTest; dsimp only; (repeat' split) <;> simp [hk]

@[simp] theorem offerAt_releaseRecord (d : DriveNo) :
    offerAt j (releaseRecord d s) = (offerAt j s ∨ mends j (releaseRecord d) s) :=
  keeps fun hk => by unfold releaseRecord; split <;> simp [hk]

@[simp] theorem offerAt_releaseItems (d : DriveNo) :
    offerAt j (releaseItems d s) = (offerAt j s ∨ mends j (releaseItems d) s) :=
  keeps fun hk => by simp [releaseItems, hk]

@[simp] theorem offerAt_releaseFence (d : DriveNo) :
    offerAt j (releaseFence d s) = (offerAt j s ∨ mends j (releaseFence d) s) :=
  keeps fun hk => by unfold releaseFence; dsimp only; (repeat' split) <;> simp [hk]

@[simp] theorem offerAt_raiseReady (d : DriveNo) (why : Option RecalReason) :
    offerAt j (raiseReady d why s) = (offerAt j s ∨ mends j (raiseReady d why) s) :=
  keeps fun hk => by unfold raiseReady; split <;> simp [hk]

@[simp] theorem offerAt_idleReady (d : DriveNo) (why : Option RecalReason) :
    offerAt j (idleReady d why s) = (offerAt j s ∨ mends j (idleReady d why) s) :=
  keeps fun hk => by simp [idleReady, hk]

@[simp] theorem offerAt_recalibrated (d : DriveNo) :
    offerAt j (recalibrated d s) = (offerAt j s ∨ mends j (recalibrated d) s) :=
  keeps fun hk => by unfold recalibrated; (repeat' split) <;> simp [hk]

@[simp] theorem offerAt_purge (d : DriveNo) : offerAt j (purge d s) = (offerAt j s ∨ mends j (purge d) s) :=
  keeps fun hk => offerAt_each _ (fun c t ht => by simp [ht]) hk

/-! The loss of a drive (R13, R14). -/

@[simp] theorem offerAt_dropDrive (d : DriveNo) (ready late : Bool) :
    offerAt j (dropDrive d ready late s) = (offerAt j s ∨ mends j (dropDrive d ready late) s) :=
  keeps fun hk => by
    unfold dropDrive
    rw [offerAt_later]
    refine offerAt_each _ (fun c t ht => by simp [ht]) (offerAt_each _ (fun c t ht => ?_) (by simp [hk]))
    exact offerAt_beginEnding c _ _ _ (fun _ hu => hu) ht

@[simp] theorem offerAt_loseBuffer (b : BufNo) :
    offerAt j (loseBuffer b s) = (offerAt j s ∨ mends j (loseBuffer b) s) :=
  keeps fun hk => by unfold loseBuffer; dsimp only; (repeat' split) <;> simp [hk]

@[simp] theorem offerAt_losePack (d : DriveNo) (wasFenced : Bool) :
    offerAt j (losePack d wasFenced s) = (offerAt j s ∨ mends j (losePack d wasFenced) s) :=
  keeps fun hk => by
    have hl : ∀ bs t, offerAt j t → offerAt j (each bs loseBuffer t) := fun bs t ht =>
      offerAt_each bs (fun b u hu => by simp [hu]) ht
    unfold losePack
    dsimp only
    split <;> simp [hl, hk]

/-! The drive events. -/

@[simp] theorem offerAt_comingReady (d : DriveNo) :
    offerAt j (comingReady d s) = (offerAt j s ∨ mends j (comingReady d) s) :=
  keeps fun hk => by simp [comingReady, hk]

@[simp] theorem offerAt_seekCheck (d : DriveNo) :
    offerAt j (seekCheck d s) = (offerAt j s ∨ mends j (seekCheck d) s) :=
  keeps fun hk => by unfold seekCheck; dsimp only; (repeat' split) <;> simp [hk]

@[simp] theorem offerAt_seekOutcome (d : DriveNo) (good : Bool) :
    offerAt j (seekOutcome d good s) = (offerAt j s ∨ mends j (seekOutcome d good) s) :=
  keeps fun hk => by unfold seekOutcome; (repeat' split) <;> simp [hk]

@[simp] theorem offerAt_indexEvent (d : DriveNo) :
    offerAt j (indexEvent d s) = (offerAt j s ∨ mends j (indexEvent d) s) :=
  keeps fun hk => by unfold indexEvent; dsimp only; (repeat' split) <;> simp [hk]

@[simp] theorem offerAt_sectorEvent (d : DriveNo) :
    offerAt j (sectorEvent d s) = (offerAt j s ∨ mends j (sectorEvent d) s) :=
  keeps fun hk => by unfold sectorEvent; dsimp only; (repeat' split) <;> simp [hk]

@[simp] theorem offerAt_faultOnPass (d : DriveNo) :
    offerAt j (faultOnPass d s) = (offerAt j s ∨ mends j (faultOnPass d) s) :=
  keeps fun hk => by unfold faultOnPass; (repeat' split) <;> simp [hk]

/-! The link frames. -/

@[simp] theorem offerAt_joinCtxWait (l : LinkNo) (notify : Bool) : offerAt j (joinCtxWait l notify s) = offerAt j s := by
  unfold joinCtxWait
  split <;> rfl

/-- The pre-step entries keep the law (R25). -/
theorem offerAt_runPre {j : LinkNo} (l : LinkNo) (d : DriveNo) (es : List Entry) (i : Nat) (r : PreResult)
    (hk : offerAt j r.state) : offerAt j (runPre l d es i r).state := by
  induction es generalizing i r with
  | nil => exact hk
  | cons e es ih =>
    cases e with
    | seek | read | write | flush => exact ih _ _ hk
    | sense => exact ih _ { r with sense := some (senseOf r.state d) } hk
    | reserve wait =>
      unfold runPre
      dsimp only
      split
      · exact ih _ _ (by simp [hk])
      · simp [hk]
    | release =>
      unfold runPre
      dsimp only
      split
      · exact ih _ _ (by simp [hk])
      · exact hk

@[simp] theorem offerAt_decideChain (l : LinkNo) (d : DriveNo) (tag : Byte) (notify : Bool) (es : List Entry) :
    offerAt j (decideChain l d tag notify es s) =
      (offerAt j s ∨ mends j (decideChain l d tag notify es) s) :=
  keeps fun hk => by
    have hr := offerAt_runPre l d (preSteps es) 0 ⟨s, none, none⟩ hk
    unfold decideChain
    dsimp only
    split
    · exact hr
    · split
      · exact hr
      · split
        · exact hr
        · split
          · simp [hr]
          · exact hr

@[simp] theorem offerAt_acceptance (l : LinkNo) (unit : BitVec 4) (tag : Byte) (notify : Bool) (count : Byte)
    (body : List Byte) :
    offerAt j (acceptance l unit tag notify count body s) =
      (offerAt j s ∨ mends j (acceptance l unit tag notify count body) s) :=
  keeps fun hk => by unfold acceptance; dsimp only; (repeat' split) <;> simp [hk]

@[simp] theorem offerAt_haltCtx (c : CtxNo) : offerAt j (haltCtx c s) = (offerAt j s ∨ mends j (haltCtx c) s) :=
  keeps fun hk => by
    have he : ∀ x : Context, offerAt j (endChain c .halted none [] (detachArm x.drive) s) := fun x =>
      offerAt_endChain _ _ _ _ (fun t ht => by simp [ht]) hk
    unfold haltCtx
    (repeat' split) <;> simp [he, hk]

@[simp] theorem offerAt_resetCtx (c : CtxNo) : offerAt j (resetCtx c s) = (offerAt j s ∨ mends j (resetCtx c) s) :=
  keeps fun hk => by unfold resetCtx; split <;> simp [hk]

/-- A port that enters a state which offers nothing, and its set cleared (R42, R43). -/
theorem offerAt_linkCleared {j l : LinkNo} {s : State} (p : Port) (hp : ∀ age, p.state ≠ .offering age)
    (hk : offerAt j s) : offerAt j (clearSet l (s.modPort l fun _ => p)) := by
  by_cases e : j = l
  · subst e
    refine offerAt_of_state fun age => ?_
    change ((s.modPort j fun _ => p).port j).state ≠ .offering age
    simp [hp]
  · rw [offerAt_clearSet_other e]
    simp [hk, hp]

theorem offerAt_resetLink {j : LinkNo} {s : State} (l : LinkNo) {enters : LinkState}
    (he : ∀ age, enters ≠ .offering age) (hk : offerAt j s) : offerAt j (resetLink l enters s) := by
  unfold resetLink
  rw [offerAt_later]
  refine offerAt_each _ (fun c t ht => by simp [ht]) (offerAt_linkCleared _ he ?_)
  exact hk

@[simp] theorem offerAt_deliveryEnds (l : LinkNo) (c : CtxNo) (x : Context) :
    offerAt j (deliveryEnds l c x s) = (offerAt j s ∨ mends j (deliveryEnds l c x) s) :=
  keeps fun hk => by unfold deliveryEnds; split <;> simp [hk]

/-! Management operations (chapter 11). -/

@[simp] theorem offerAt_setCursor (l : LinkNo) (k : Option Cursor) :
    offerAt j (setCursor l k s) = (offerAt j s ∨ mends j (setCursor l k) s) :=
  keeps fun hk => by simp [setCursor, hk]

@[simp] theorem offerAt_writeRow (target : LinkNo) (row : Vector Bool 8) :
    offerAt j (writeRow target row s) = (offerAt j s ∨ mends j (writeRow target row) s) :=
  keeps fun hk => offerAt_each allDrives (fun d t ht => by split <;> simp [ht]) hk

@[simp] theorem offerAt_writePolicy (d : DriveNo) (p : Policy) :
    offerAt j (writePolicy d p s) = (offerAt j s ∨ mends j (writePolicy d p) s) :=
  keeps fun hk => by unfold writePolicy; dsimp only; (repeat' split) <;> simp [hk]

@[simp] theorem offerAt_beginMap (d : DriveNo) : offerAt j (beginMap d s) = (offerAt j s ∨ mends j (beginMap d) s) :=
  keeps fun hk => by
    have he : ∀ bs t, offerAt j t → offerAt j (each bs emptyBuffer t) := fun bs t ht =>
      offerAt_each bs (fun b u hu => by simp [hu]) ht
    unfold beginMap
    dsimp only
    split <;> simp [he, hk]

@[simp] theorem offerAt_commitMap (d : DriveNo) :
    offerAt j (commitMap d s) = (offerAt j s ∨ mends j (commitMap d) s) :=
  keeps fun hk => by simp [commitMap, hk]

@[simp] theorem offerAt_discard (b : BufNo) : offerAt j (discard b s) = (offerAt j s ∨ mends j (discard b) s) :=
  keeps fun hk => by unfold discard; dsimp only; (repeat' split) <;> simp [hk]

/-! The resets (R199). -/

@[simp] theorem offerAt_resetPort (l : LinkNo) :
    offerAt j (resetPort l s) = (offerAt j s ∨ mends j (resetPort l) s) :=
  keeps fun hk => by
    unfold resetPort
    dsimp only
    split
    · next hd =>
      by_cases e : j = l
      · exact offerAt_of_state fun age ha => by
          subst e
          change (s.port j).state = _ at ha
          simp [hd] at ha
      · simp [offerAt_clearSet_other e, hk]
    · exact offerAt_linkCleared (s := s.modAuth l fun _ => ⟨false, false⟩) _ (by simp) hk

@[simp] theorem offerAt_dropRelocation (d : DriveNo) : offerAt j (dropRelocation d s) = offerAt j s := by
  unfold dropRelocation
  (repeat' split) <;> rfl

@[simp] theorem offerAt_sparesQuietly (d : DriveNo) : offerAt j (sparesQuietly d s) = offerAt j s := rfl

@[simp] theorem offerAt_resetArm (d : DriveNo) : offerAt j (resetArm d s) = offerAt j s := by
  unfold resetArm
  (repeat' split) <;> rfl

@[simp] theorem offerAt_policyQuietly (d : DriveNo) : offerAt j (policyQuietly d s) = offerAt j s := by
  unfold policyQuietly
  (repeat' split) <;> rfl

@[simp] theorem offerAt_resetBuffer (b : BufNo) :
    offerAt j (resetBuffer b s) = (offerAt j s ∨ mends j (resetBuffer b) s) :=
  keeps fun hk => by unfold resetBuffer; dsimp only; (repeat' split) <;> simp [hk]

@[simp] theorem offerAt_resetController : offerAt j (resetController s) = (offerAt j s ∨ mends j resetController s) :=
  keeps fun hk => by
    unfold resetController
    extract_lets s1 s2 s3 s4 path s5 s6 s7 s8
    have h1 : offerAt j s1 := offerAt_each _ (fun l t ht => by simp [ht]) hk
    clear_value s1
    have h2 : offerAt j s2 := h1
    have h3 : offerAt j s3 := offerAt_each _ (fun d t ht => by simp [ht]) h2
    have h4 : offerAt j s4 := offerAt_each _ (fun d t ht => by simp [ht]) h3
    clear_value s4
    have h5 : offerAt j s5 := h4
    have h6 : offerAt j s6 := offerAt_each _ (fun d t ht => by simp [ht]) h5
    have h7 : offerAt j s7 := offerAt_each _ (fun b t ht => by simp [ht]) h6
    have h8 : offerAt j s8 := by simp [s8, h7]
    exact offerAt_each _ (fun d t ht => by simp [ht]) h8

@[simp] theorem offerAt_turnSwitches (turned : Option (Vector Byte 8)) :
    offerAt j (turnSwitches turned s) = offerAt j s := by
  unfold turnSwitches
  split <;> rfl

@[simp] theorem offerAt_writeLevels (l target : LinkNo) (levels : Vector (Fin 16) 13) :
    offerAt j (writeLevels l target levels s) = (offerAt j s ∨ mends j (writeLevels l target levels) s) :=
  keeps fun hk => by
    have hl : offerAt j (s.modPresent target fun p => { p with levels := levels }) :=
      offerAt_modPresent hk fun i hi _ => ⟨i, hi, rfl⟩
    unfold writeLevels
    dsimp only
    split <;> simp [hl]

@[simp] theorem offerAt_runTask (k : Task) : offerAt j (runTask k s) = (offerAt j s ∨ mends j (runTask k) s) :=
  keeps fun hk => by cases k <;> simp [runTask, hk]

end

/-! The commands. -/

/-- The state that a command answers obeys the law of the link. -/
def LeavesOffer (j : LinkNo) (o : Host.Outcome State Fault Refusal) : Prop := ∀ t, o = .next t → offerAt j t

/-- A command keeps what its effect keeps. -/
theorem take_leavesOffer {j : LinkNo} {f : State → State} {s : State} (hf : ∀ u, offerAt j u → offerAt j (f u))
    (hk : offerAt j s) : LeavesOffer j (take s f) :=
  fun _ h => take_keeps (P := offerAt j) (fun _ _ hu => hu) (fun k u hu => by simp [hu]) hf hk h

/-- A management operation keeps what its effects keep. -/
theorem manage_leavesOffer {j l : LinkNo} {tag code : Byte} {needsFull lengthOk : Bool} {verdict : State → Verdict}
    {s : State} (hv : ∀ u t, offerAt j t → offerAt j ((verdict u).early t)) (hk : offerAt j s) :
    LeavesOffer j (take s (manage l tag code needsFull lengthOk verdict)) := by
  have hc : ∀ u t, offerAt j t → offerAt j ((checkedVerdict u l needsFull lengthOk verdict).early t) := by
    intro u t ht
    unfold checkedVerdict
    (repeat' split) <;> simp [hv, ht]
  refine take_leavesOffer (fun u hu => ?_) hk
  unfold manage
  dsimp only
  split
  · exact hu
  · exact hc _ _ (by simp [hu])
  · exact hu
  · exact hu

/-- ACCEPT: the item leaves the set, and its link goes IDLE or is connected. -/
theorem execAccept_leavesOffer {j l : LinkNo} {s : State} (hk : offerAt j s) : LeavesOffer j (execAccept l s) := by
  refine take_leavesOffer (fun u hu => ?_) hk
  have ht : ∀ xs, j ≠ l → offerAt j (setItems l xs u) := fun xs e => by simp [offerAt_setItems_other xs e, hu]
  dsimp only
  split
  · exact hu
  · split
    · exact offerAt_goIdle_of fun e => by simp [ht _ e]
    · by_cases e : j = l
      · subst e
        refine offerAt_of_state fun age => ?_
        change ((setItems j _ u).modPort j _ |>.port j).state ≠ .offering age
        simp
      · simp [ht _ e]
    · exact offerAt_goIdle_of fun e => ht _ e

theorem execLinkUp_leavesOffer {j l : LinkNo} {s : State} (hk : offerAt j s) : LeavesOffer j (execLinkUp l s) := by
  refine take_leavesOffer (s := setLine l true s) (fun u hu => ?_) hk
  split
  · exact offerAt_linkCleared _ (by simp) hu
  · exact hu

theorem execPowerOnClear_leavesOffer (j : LinkNo) (s : State) : LeavesOffer j (execPowerOnClear s) := by
  rintro _ ⟨⟩
  refine offerAt_of_state fun age => ?_
  change ((Vector.ofFn fun l => portAfterClear (s.lineUp.get l)).get j).state ≠ _
  simp only [Vector.get_eq_getElem, Vector.getElem_ofFn, portAfterClear]
  split <;> simp

theorem execCommandFrame_leavesOffer {j l : LinkNo} {unit : BitVec 4} {tag : Byte} {notify : Bool} {count : Byte}
    {body : List Byte} {s : State} (hk : offerAt j s) :
    LeavesOffer j (execCommandFrame l unit tag notify count body s) := by
  refine take_leavesOffer (fun u hu => ?_) hk
  split <;> simp [hu]

theorem execDataFrame_leavesOffer {j l : LinkNo} {tag sector : Byte} {data : List Byte} {s : State} (hk : offerAt j s) :
    LeavesOffer j (execDataFrame l tag sector data s) := by
  refine take_leavesOffer (fun u hu => ?_) hk
  dsimp only
  (repeat' split) <;> simp [hu]

theorem execResume_leavesOffer {j l : LinkNo} {s : State} (hk : offerAt j s) : LeavesOffer j (execResume l s) := by
  refine take_leavesOffer (fun u hu => ?_) hk
  split <;> simp [hu]

theorem execHalt_leavesOffer {j l : LinkNo} {tag : Byte} {s : State} (hk : offerAt j s) :
    LeavesOffer j (execHalt l tag s) := by
  refine take_leavesOffer (fun u hu => ?_) hk
  dsimp only
  (repeat' split) <;> simp [hu]

theorem execLinkReset_leavesOffer {j l : LinkNo} {s : State} (hk : offerAt j s) : LeavesOffer j (execLinkReset l s) := by
  refine take_leavesOffer (fun u hu => ?_) hk
  split
  · exact hu
  · exact offerAt_resetLink l (by simp) hu

theorem execLinkDown_leavesOffer {j l : LinkNo} {s : State} (hk : offerAt j s) : LeavesOffer j (execLinkDown l s) := by
  refine take_leavesOffer (s := setLine l false s) (fun u hu => ?_) hk
  split
  · exact hu
  · exact offerAt_resetLink l (by simp) hu

theorem execDataTimeout_leavesOffer {j l : LinkNo} {s : State} (hk : offerAt j s) :
    LeavesOffer j (execDataTimeout l s) := by
  refine take_leavesOffer (fun u hu => ?_) hk
  (repeat' split) <;> simp [hu]

theorem execRecalibrateTimeout_leavesOffer {j : LinkNo} {d : DriveNo} {s : State} (hk : offerAt j s) :
    LeavesOffer j (execRecalibrateTimeout d s) := by
  refine take_leavesOffer (fun u hu => ?_) hk
  split <;> simp [hu]

theorem execReady_leavesOffer {j : LinkNo} {d : DriveNo} {s : State} (hk : offerAt j s) :
    LeavesOffer j (execReady d s) := by
  refine take_leavesOffer (fun u hu => ?_) hk
  split <;> simp [hu]

theorem execNotReady_leavesOffer {j : LinkNo} {d : DriveNo} {s : State} (hk : offerAt j s) :
    LeavesOffer j (execNotReady d s) := by
  refine take_leavesOffer (fun u hu => ?_) hk
  split <;> simp [hu]

theorem execRecalDone_leavesOffer {j : LinkNo} {d : DriveNo} {good : Bool} {s : State} (hk : offerAt j s) :
    LeavesOffer j (execRecalDone d good s) := by
  refine take_leavesOffer (fun u hu => ?_) hk
  (repeat' split) <;> simp [hu]

theorem execConditionRaised_leavesOffer {j : LinkNo} {d : DriveNo} {c : DriveCondition} {s : State} (hk : offerAt j s) :
    LeavesOffer j (execConditionRaised d c s) := by
  refine take_leavesOffer (fun u hu => ?_) hk
  dsimp only
  (repeat' split) <;> simp [hu]

theorem execConditionCleared_leavesOffer {j : LinkNo} {d : DriveNo} {c : DriveCondition} {s : State} (hk : offerAt j s) :
    LeavesOffer j (execConditionCleared d c s) := by
  refine take_leavesOffer (fun u hu => ?_) hk
  split <;> simp [hu]

theorem execSettleEnd_leavesOffer {j : LinkNo} {d : DriveNo} {s : State} (hk : offerAt j s) :
    LeavesOffer j (execSettleEnd d s) := by
  refine take_leavesOffer (fun u hu => ?_) hk
  (repeat' split) <;> simp [hu]

theorem execPassEnd_leavesOffer {j : LinkNo} {d : DriveNo} {e : PassCloser} {s : State} (hk : offerAt j s) :
    LeavesOffer j (execPassEnd d e s) := by
  refine take_leavesOffer (fun u hu => ?_) hk
  (repeat' split) <;> simp [hu]

theorem execDeliveryFrame_leavesOffer {j l : LinkNo} {s : State} (hk : offerAt j s) :
    LeavesOffer j (execDeliveryFrame l s) := by
  refine take_leavesOffer (fun u hu => ?_) hk
  dsimp only
  (repeat' split) <;> simp [hu]

/-! The operations of the Management Engine, each by its verdict. -/

theorem offerAt_attachVerdict {j : LinkNo} {l : LinkNo} {identity : List Byte} {u t : State} (ht : offerAt j t) :
    offerAt j ((attachVerdict l identity u).early t) := by
  unfold attachVerdict
  (repeat' split) <;> exact ht

theorem offerAt_mapReadVerdict {j : LinkNo} {l : LinkNo} {d : DriveNo} {restart : Bool} {u t : State}
    (ht : offerAt j t) : offerAt j ((mapReadVerdict l d restart u).early t) := by
  unfold mapReadVerdict
  dsimp only
  (repeat' split) <;> simp [ht]

theorem offerAt_suspectReadVerdict {j : LinkNo} {l : LinkNo} {restart : Bool} {u t : State} (ht : offerAt j t) :
    offerAt j ((suspectReadVerdict l restart u).early t) := by
  unfold suspectReadVerdict
  dsimp only
  (repeat' split) <;> simp [ht]

theorem offerAt_driveVerdict {j : LinkNo} {operand : List Byte} {decide : DriveNo → Verdict} {t : State}
    (h : ∀ d, offerAt j ((decide d).early t)) (ht : offerAt j t) :
    offerAt j ((driveVerdict operand decide).early t) := by
  unfold driveVerdict
  split <;> simp [h, ht]

theorem offerAt_trackVerdict {j : LinkNo} {operand : List Byte} {decide : DriveNo → HomeTrack → Verdict} {t : State}
    (h : ∀ d home, offerAt j ((decide d home).early t)) (ht : offerAt j t) :
    offerAt j ((trackVerdict operand decide).early t) := by
  unfold trackVerdict
  (repeat' split) <;> simp [h, ht]

theorem offerAt_bufferVerdict {j : LinkNo} {operand : List Byte} {decide : BufNo → Verdict} {t : State}
    (h : ∀ b, offerAt j ((decide b).early t)) (ht : offerAt j t) :
    offerAt j ((bufferVerdict operand decide).early t) := by
  unfold bufferVerdict
  split <;> simp [h, ht]

theorem offerAt_placeVerdict {j : LinkNo} {d : DriveNo} {h : HomeTrack} {count : Nat} {u t : State}
    (ht : offerAt j t) : offerAt j ((placeVerdict u d h count).early t) := by
  unfold placeVerdict
  split <;> simp [ht]

/-- Every command keeps the law of a link. -/
theorem exec_leavesOffer {j : LinkNo} {s : State} (c : Instr) (hk : offerAt j s) : LeavesOffer j (exec c s) := by
  cases c with
  | commandFrame l unit tag notify count body => exact execCommandFrame_leavesOffer hk
  | dataFrame l tag sector data => exact execDataFrame_leavesOffer hk
  | accept l => exact execAccept_leavesOffer hk
  | defer l => exact take_leavesOffer (fun u hu => by simp [hu]) hk
  | resume l => exact execResume_leavesOffer hk
  | halt l tag => exact execHalt_leavesOffer hk
  | linkReset l => exact execLinkReset_leavesOffer hk
  | linkDown l => exact execLinkDown_leavesOffer hk
  | linkUp l => exact execLinkUp_leavesOffer hk
  | frameCheckFailure l frame => exact take_leavesOffer (fun u hu => hu) hk
  | manageInvalid l tag why => exact manage_leavesOffer (fun u t ht => ht) hk
  | attach l tag operand turned =>
    exact manage_leavesOffer (s := turnSwitches turned s) (fun u t ht => offerAt_attachVerdict ht) (by simp [hk])
  | statusRead l tag operand => exact manage_leavesOffer (fun u t ht => by split <;> exact ht) hk
  | mapRead l tag operand =>
    exact manage_leavesOffer (fun u t ht => by (repeat' split) <;> simp [offerAt_mapReadVerdict, ht]) hk
  | suspectRead l tag operand =>
    exact manage_leavesOffer (fun u t ht => by split <;> simp [offerAt_suspectReadVerdict, ht]) hk
  | bufferRead l tag operand => exact manage_leavesOffer (fun u t ht => ht) hk
  | captureRead l tag operand => exact manage_leavesOffer (fun u t ht => ht) hk
  | priorityWrite l tag operand => exact manage_leavesOffer (fun u t ht => by (repeat' split) <;> simp [ht]) hk
  | pathWrite l tag operand => exact manage_leavesOffer (fun u t ht => by split <;> simp [ht]) hk
  | policyWrite l tag operand => exact manage_leavesOffer (fun u t ht => by split <;> simp [ht]) hk
  | mapBegin l tag operand =>
    exact manage_leavesOffer (fun u t ht => offerAt_driveVerdict (fun d => by (repeat' split) <;> simp [ht]) ht) hk
  | mapLoad l tag operand => exact manage_leavesOffer (fun u t ht => by (repeat' split) <;> simp [ht]) hk
  | mapCommit l tag operand =>
    exact manage_leavesOffer (fun u t ht => offerAt_driveVerdict (fun d => by split <;> simp [ht]) ht) hk
  | relocate l tag operand =>
    exact manage_leavesOffer (fun u t ht => offerAt_trackVerdict (fun d h => by (repeat' split) <;> simp [ht]) ht) hk
  | suspectPlace l tag operand =>
    exact manage_leavesOffer (fun u t ht => offerAt_trackVerdict (fun d h => by
      split
      · exact offerAt_placeVerdict ht
      · exact ht) ht) hk
  | suspectRemove l tag operand =>
    exact manage_leavesOffer (fun u t ht => offerAt_trackVerdict (fun d h => by split <;> simp [ht]) ht) hk
  | fenceForce l tag operand =>
    exact manage_leavesOffer (fun u t ht => offerAt_driveVerdict (fun d => by simp [ht]) ht) hk
  | fenceClear l tag operand =>
    exact manage_leavesOffer (fun u t ht => offerAt_driveVerdict (fun d => by (repeat' split) <;> simp [ht]) ht) hk
  | fencePurge l tag operand =>
    exact manage_leavesOffer (fun u t ht => offerAt_driveVerdict (fun d => by split <;> simp [ht]) ht) hk
  | forceRelease l tag operand => exact manage_leavesOffer (fun u t ht => by (repeat' split) <;> simp [ht]) hk
  | bufferDiscard l tag operand =>
    exact manage_leavesOffer (fun u t ht => offerAt_bufferVerdict (fun b => by split <;> simp [ht]) ht) hk
  | parityForce l tag operand =>
    exact manage_leavesOffer (fun u t ht => offerAt_bufferVerdict (fun b => by simp [ht]) ht) hk
  | controllerReset l tag operand => exact manage_leavesOffer (fun u t ht => by simp [ht]) hk
  | offerTimeout l => exact take_leavesOffer (fun u hu => by simp [hu]) hk
  | dataTimeout l => exact execDataTimeout_leavesOffer hk
  | seekTimeout d => exact take_leavesOffer (fun u hu => by simp [hu]) hk
  | recalibrateTimeout d => exact execRecalibrateTimeout_leavesOffer hk
  | ready d => exact execReady_leavesOffer hk
  | notReady d => exact execNotReady_leavesOffer hk
  | seekDone d good => exact take_leavesOffer (fun u hu => by simp [hu]) hk
  | recalDone d good => exact execRecalDone_leavesOffer hk
  | index d => exact take_leavesOffer (fun u hu => by simp [hu]) hk
  | sector d => exact take_leavesOffer (fun u hu => by simp [hu]) hk
  | sectorResult d sec r => exact take_leavesOffer (fun u hu => by simp [hu]) hk
  | conditionRaised d c => exact execConditionRaised_leavesOffer hk
  | conditionCleared d c => exact execConditionCleared_leavesOffer hk
  | settleEnd d => exact execSettleEnd_leavesOffer hk
  | passEnd d e => exact execPassEnd_leavesOffer hk
  | deliveryFrame l => exact execDeliveryFrame_leavesOffer hk
  | powerOnClear => exact execPowerOnClear_leavesOffer j s
  | powerOnClearAsserted =>
    rintro _ ⟨⟩
    exact hk

/-- What the internal work of a state keeps (log 3). -/
theorem offerAt_settle {j : LinkNo} {s : State} (hk : offerAt j s) : offerAt j (settle s) :=
  settle_keeps (P := offerAt j) (fun _ _ hu => hu) (fun k u hu => by simp [hu]) s hk

/-- Settles O10: link by link, the law survives every command, and the work that an idle step may find left over. -/
theorem offerLawKept : Obligations.OfferLawKept := by
  intro s t hs h
  rw [offerLaw_iff] at hs ⊢
  intro j
  unfold step at h
  split at h
  · cases h
    exact offerAt_settle (hs j)
  · next c rest _ => exact exec_leavesOffer (s := { s with pending := rest }) c (hs j) t h

end Sys2Proof.Machine.PresentationControl
end

section
namespace Sys2Proof.Machine.PresentationControl
open Sys2Proof.Machine.Laws Sys2Proof.Machine.DriveString Sys2Proof.Machine.ChainControl

/-! SUPPORT. A raised item, the item of highest level, and an offer put off (R48, R50, R54, R57 to R59). -/

/-- A change of a set is what it does to the set as it stands. -/
theorem modPresent_congr {l : LinkNo} {f g : Present → Present} {s : State}
    (h : f (s.present.get l) = g (s.present.get l)) : s.modPresent l f = s.modPresent l g := by
  simp only [State.modPresent, change, h]

/-! Raising (R48). -/

theorem raise_down {l : LinkNo} {body : ItemBody} {s : State} (h : (s.port l).state = .down) :
    raise l body s = s := if_pos h

/-- A pending item of this identity is in the set. -/
theorem any_pending_iff {l : LinkNo} {body : ItemBody} {s : State} :
    ((s.present.get l).items.any fun i => !onOffer s l i && i.body.same body) = true ↔
      ∃ i ∈ (s.present.get l).items, onOffer s l i = false ∧ i.body.same body = true := by
  simp

/-- A new item joins a set that has room as its youngest (R48, R51). -/
theorem joinSet_room {l : LinkNo} {body : ItemBody} {s : State} (h : (s.present.get l).items.length < 64) :
    joinSet l body s = s.modPresent l fun p =>
      { p with items := p.items ++ [⟨p.nextAge, body, false⟩], nextAge := p.nextAge + 1 } :=
  modPresent_congr (by simp [Config.setPlaces, h])

theorem raise_joins {l : LinkNo} {body : ItemBody} {s : State} (hd : (s.port l).state ≠ .down)
    (hn : ∀ i ∈ (s.present.get l).items, ¬(onOffer s l i = false ∧ i.body.same body = true)) :
    raise l body s = choose l (joinSet l body s) := by
  have ha : ¬((s.present.get l).items.any fun i => !onOffer s l i && i.body.same body) = true := fun h =>
    let ⟨i, hi, hp⟩ := any_pending_iff.mp h
    hn i hi hp
  simp only [raise, if_neg hd, if_neg ha]

theorem raise_merges {l : LinkNo} {body : ItemBody} {s : State} (hd : (s.port l).state ≠ .down)
    (hp : ∃ i ∈ (s.present.get l).items, onOffer s l i = false ∧ i.body.same body = true) :
    raise l body s = choose l (s.modPresent l fun p => { p with items := p.items.map (fun i =>
      if onOffer s l i = false ∧ i.body.same body = true then { i with body := i.body.merge body } else i) }) := by
  simp only [raise, if_neg hd, if_pos (any_pending_iff.mpr hp)]
  exact congrArg (choose l) (modPresent_congr (by simp))

/-! The item of highest level, the oldest among equal levels (R54). -/

/-- In a set in age order, an item that no other exceeds, and that is the oldest of its level, is the one found. -/
theorem highest_eq {level : Item → Fin 16} {xs : List Item} {i : Item} (hi : i ∈ xs)
    (ht : ∀ x ∈ xs, level x ≤ level i ∧ (level x = level i → i.age ≤ x.age))
    (ha : xs.Pairwise fun a b => a.age < b.age) : highest level xs = some i := by
  induction xs with
  | nil => simp at hi
  | cons x r ih =>
    obtain ⟨hx, hr⟩ := List.pairwise_cons.mp ha
    rcases List.mem_cons.mp hi with rfl | hm
    · cases hh : highest level r with
      | none => simp only [highest, hh]
      | some y =>
        have hy : level y ≤ level i := (ht y (List.mem_cons_of_mem _ (highest_mem hh))).1
        simp only [highest, hh, if_neg hy.not_gt]
    · have hlt : level x < level i := by
        obtain ⟨hle, hage⟩ := ht x List.mem_cons_self
        refine lt_of_le_of_ne hle fun he => ?_
        exact absurd (hx i hm) (hage he).not_gt
      have hh : highest level r = some i := ih hm (fun y hy => ht y (List.mem_cons_of_mem _ hy)) hr
      simp only [highest, hh, if_pos hlt]

/-- Settles O59: `raise` by the state of its link and of the set, and `choose` by the highest item above the floor. -/
theorem raisingAndChoice : Obligations.RaisingAndChoice := by
  refine ⟨fun l body s => ⟨raise_down, fun hd hn hroom => ?_, raise_merges⟩,
    fun l s => ⟨choose_busy, fun _ hn => choose_nothing ?_, fun i hi hp hf ht ha => choose_offers hp ?_⟩⟩
  · rw [raise_joins hd hn, joinSet_room hroom]
  · exact List.filter_eq_nil_iff.mpr fun i hi => by simpa using hn i hi
  · refine highest_eq (mem_offerable.mpr ⟨hi, hf⟩) (fun x hx => ?_) (ha.filter _)
    obtain ⟨hm, hx⟩ := mem_offerable.mp hx
    exact ht x hm hx

/-! An offer put off (R50, R57, R58). -/

/-- The return of the offered item does not concern the floor. -/
theorem returnItem_setFloor (l : LinkNo) (i : Item) (f : Fin 16) (s : State) :
    returnItem l i (setFloor l f s) = setFloor l f (returnItem l i s) := by
  have hp : (setFloor l f s).present = s.present := rfl
  unfold returnItem
  rw [hp]
  dsimp only
  (repeat' split) <;> rfl

/-- An item whose condition has ended is gone (R50). -/
theorem returnItem_ended {l : LinkNo} {i : Item} {s : State} (h : i.ended = true) :
    returnItem l i s = setItems l (itemsBut l i.age s) s := if_pos h

/-- An item that meets no pending one of its identity returns as it is (R57). -/
theorem returnItem_alone {l : LinkNo} {i : Item} {s : State} (h : i.ended = false)
    (hn : ∀ x ∈ (s.present.get l).items, x.age ≠ i.age → x.body.same i.body = false) : returnItem l i s = s := by
  have hf : ((s.present.get l).items.find? fun k => k.age != i.age && k.body.same i.body) = none := by
    simpa using hn
  simp only [returnItem, h, hf, Bool.false_eq_true, if_false]

/-- A pending item of its identity merges into the returned one (R57). -/
theorem returnItem_merges {l : LinkNo} {i x : Item} {s : State} (h : i.ended = false)
    (hf : ((s.present.get l).items.find? fun k => k.age != i.age && k.body.same i.body) = some x) :
    returnItem l i s = setItems l ((itemsBut l x.age s).map fun k =>
      if k.age = i.age then { k with body := k.body.merge x.body } else k) s := by
  simp only [returnItem, h, hf, Bool.false_eq_true, if_false]
  rfl

theorem putOff_offered {l : LinkNo} {i : Item} {s : State} (h : offered s l = some i) :
    putOff l s = goIdle l (setFloor l (levelOf s l i.body.kind) (returnItem l i s)) := by
  simp only [putOff, h, returnItem_setFloor]

/-- A Defer and the expiry of the Offer Timeout act alike (R57, R58). -/
theorem exec_putOff {l : LinkNo} {s : State} (hs : calm s) :
    exec (.defer l) s = .next (putOff l s) ∧ exec (.offerTimeout l) s = .next (putOff l s) := by
  have hw : (putOff l s).work = [] := (work_of_behind (behind_putOff l s)).trans hs.2
  exact ⟨take_effect hs rfl hw, take_effect hs rfl hw⟩

/-- Settles O24: a Resume changes the floor alone, and what is put off returns to the set by its three cases. -/
theorem floorMoves : Obligations.FloorMoves := by
  refine ⟨fun l s hs hp => ?_, fun l i s hs ho => ?_⟩
  · change execResume l s = _
    exact take_effect hs (if_neg hp) (choose_work hs.2)
  · have hput := exec_putOff (l := l) hs
    rw [putOff_offered ho] at hput
    refine ⟨fun he => ?_, fun he hn => ?_, fun x he hf => ?_⟩
    · rwa [returnItem_ended he] at hput
    · rwa [returnItem_alone he hn] at hput
    · rwa [returnItem_merges he hf] at hput

end Sys2Proof.Machine.PresentationControl
end

section
namespace Sys2Proof.Machine.PresentationControl
open Sys2Proof.Machine.Laws Sys2Proof.Machine.DriveString Sys2Proof.Machine.ChainControl

/-! SUPPORT. What a frame does in a link state that gives it no use (R59, R61). -/

/-- A command that its link's state gives no use. -/
theorem take_disregards {f : State → State} {s : State} (hs : calm s) (hf : f s = s) : take s f = .next s :=
  take_effect hs hf hs.2

/-- With nothing on offer, an answer to an offer has no use (R61). -/
theorem offered_of_not_offering {l : LinkNo} {s : State} (h : ∀ age, (s.port l).state ≠ .offering age) :
    offered s l = none := by
  unfold offered
  split
  · next age ha => exact absurd ha (h age)
  · rfl

/-- Settles O21: each effect tests the state of its link first. -/
theorem outOfTurnDisregarded : Obligations.OutOfTurnDisregarded := by
  intro l s hs
  refine ⟨fun hn => ?_, fun hn => ⟨fun tag sector data => ?_, ?_⟩, fun hn => ?_, fun hd => ?_⟩
  · change execAccept l s = _ ∧ execDefer l s = _ ∧ execOfferTimeout l s = _
    have ho := offered_of_not_offering hn
    have hp : putOff l s = s := by simp only [putOff, ho]
    exact ⟨take_disregards hs (by simp only [ho]), take_disregards hs hp, take_disregards hs hp⟩
  · change execDataFrame l tag sector data s = _
    refine take_disregards hs ?_
    split
    · next c hc => exact absurd hc (hn c)
    · rfl
  · change execDataTimeout l s = _
    refine take_disregards hs ?_
    split
    · next c hc => exact absurd hc (hn c)
    · rfl
  · change execDeliveryFrame l s = _
    refine take_disregards hs ?_
    split
    · next c hc => exact absurd hc (hn c)
    · rfl
  · change execResume l s = _ ∧ (∀ tag, execHalt l tag s = _) ∧ execLinkReset l s = _
    exact ⟨take_disregards hs (if_pos hd), fun tag => take_disregards hs (if_pos hd),
      take_disregards hs (if_pos hd)⟩

/-- A management operation of any code, and one of none, is a frame of the Management Engine (R193). -/
theorem exec_managementOp (l : LinkNo) (tag code : Byte) (operand : List Byte) (s : State) :
    ∃ k needsFull lengthOk verdict,
      exec (managementOp l tag code operand) s = take s (manage l tag k needsFull lengthOk verdict) := by
  unfold managementOp
  split <;> exact ⟨_, _, _, _, rfl⟩

section
variable {l : LinkNo} {tag code : Byte} {needsFull lengthOk : Bool} {verdict : State → Verdict} {s : State}

/-- In OFFERING or CONNECTED a management frame is answered Link Busy (R61). -/
theorem manage_engaged (h : engaged l s) :
    manage l tag code needsFull lengthOk verdict s = s.frame l (.linkBusy 15#4 tag) := by
  obtain ⟨age, hp⟩ | ⟨c, dir, hp⟩ := h <;> simp only [manage, hp] <;> rfl

/-- In DOWN no management frame is received. -/
theorem manage_down (h : (s.port l).state = .down) : manage l tag code needsFull lengthOk verdict s = s := by
  simp only [manage, h]

end

/-- Settles O13: Command Frames and management frames test the state of their link alike. -/
theorem frameTurnedAway : Obligations.FrameTurnedAway := by
  intro l s hs
  refine ⟨fun he => ⟨fun unit tag notify count body => ?_, fun tag code operand => ?_, fun tag why => ?_⟩,
    fun hd => ⟨fun unit tag notify count body => ?_, fun tag code operand => ?_, fun tag why => ?_⟩⟩
  · change execCommandFrame l unit tag notify count body s = _
    refine take_effect hs ?_ hs.2
    obtain ⟨age, hp⟩ | ⟨c, dir, hp⟩ := he <;> simp only [hp]
  · obtain ⟨k, needsFull, lengthOk, verdict, h⟩ := exec_managementOp l tag code operand s
    rw [h]
    exact take_effect hs (manage_engaged he) hs.2
  · exact take_effect hs (manage_engaged he) hs.2
  · change execCommandFrame l unit tag notify count body s = _
    exact take_disregards hs (by simp only [hd])
  · obtain ⟨k, needsFull, lengthOk, verdict, h⟩ := exec_managementOp l tag code operand s
    rw [h]
    exact take_disregards hs (manage_down hd)
  · exact take_disregards hs (manage_down hd)

end Sys2Proof.Machine.PresentationControl
end

section
namespace Sys2Proof.Machine.PresentationControl
open Sys2Proof.Machine.Laws Sys2Proof.Machine.DriveString Sys2Proof.Machine.ChainControl

/-! SUPPORT. A frame of a delivery, and the last (R34, R62, R150). -/

/-- A delivery's next frame has gone out, and these sectors are left to send. -/
def sendsSector (l : LinkNo) (c : CtxNo) (x : Context) (y : SectorNo) (rest : List (SectorNo × Bool))
    (bytes : List Byte) (s : State) : State :=
  (s.setCtx c (some { x with deliver := rest })).frame l (.data x.tag y bytes)

/-- A command taken between two others. -/
theorem take_runs {f : State → State} {s u : State} (hs : calm s) (hf : f s = u) : take s f = .next (settle u) := by
  obtain ⟨hc, hw⟩ := hs
  rw [take_calm s f hc hw, hf]

/-- What DELIVERY_FRAME sends, sector data of good parity or fill, and whether the delivery ends with it. -/
theorem exec_deliveryFrame {l : LinkNo} {c : CtxNo} {x : Context} {b : BufNo} {y : SectorNo} {fill : Bool}
    {rest : List (SectorNo × Bool)} {bytes : List Byte} {s : State} (hs : calm s)
    (hp : (s.port l).state = .connected c .toHost) (hx : s.ctx c = some x) (hb : x.buffer = some b)
    (hd : x.deliver = (y, fill) :: rest)
    (hdata : if fill then bytes = List.replicate 512 0#8
      else ∃ dirty, (s.buffer b).cell y = some ⟨bytes, dirty, false⟩) :
    exec (.deliveryFrame l) s = .next (settle
      (if rest.isEmpty then deliveryEnds l c x (sendsSector l c x y rest bytes s)
        else sendsSector l c x y rest bytes s)) := by
  have hsend : ∀ bytes, (s.frame l (.data x.tag y bytes)).modCtx c (fun k => { k with deliver := rest }) =
      sendsSector l c x y rest bytes s := fun bytes => modCtx_some (s := s.frame l (.data x.tag y bytes)) hx
  change execDeliveryFrame l s = _
  refine take_runs hs ?_
  cases fill with
  | true =>
    have hbytes : bytes = fillData := hdata
    simp only [hp, hx, hb, hd, hsend, hbytes, if_true]
  | false =>
    obtain ⟨dirty, hcell⟩ : ∃ dirty, (s.buffer b).cell y = some ⟨bytes, dirty, false⟩ := hdata
    simp only [hp, hx, hb, hd, hsend, hcell, Bool.false_eq_true, if_false]

/-- A context is changed as its link enters IDLE. -/
theorem modCtx_goIdle {l : LinkNo} {c : CtxNo} {x : Context} {s : State} (f : Context → Context)
    (h : s.ctx c = some x) : (goIdle l s).modCtx c f = (goIdle l s).setCtx c (some (f x)) :=
  modCtx_some ((congrArg (fun v => v.get c) (contexts_of_behind (behind_goIdle l s))).trans h)

/-- The context of a delivery that has sent its last frame goes on with its command. -/
def sentAll (x : Context) : Context := { x with deliver := [], state := .waitStore .goingOn }

theorem modCtx_sendsSector (l : LinkNo) (c : CtxNo) (x : Context) (y : SectorNo) (bytes : List Byte) (s : State) :
    (sendsSector l c x y [] bytes s).modCtx c (fun k => { k with state := .waitStore .goingOn, deliver := [] }) =
      (s.setCtx c (some (sentAll x))).frame l (.data x.tag y bytes) := by
  have hc : (sendsSector l c x y [] bytes s).ctx c = some { x with deliver := [] } :=
    (ctx_setCtx c c _ s).trans (if_pos rfl)
  rw [modCtx_some hc]
  exact congrArg (State.frame l (.data x.tag y bytes)) (setCtx_setCtx c _ _ s)

theorem ctx_sentAll (l : LinkNo) (c : CtxNo) (x : Context) (f : HostFrame) (s : State) :
    ((s.setCtx c (some (sentAll x))).frame l f).ctx c = some (sentAll x) :=
  (ctx_setCtx c c _ s).trans (if_pos rfl)

/-- After the last frame a READ with a condition ends with it (R34). -/
theorem deliveryEnds_condition {l : LinkNo} {c : CtxNo} {x : Context} {y : SectorNo} {bytes : List Byte}
    {cond : Condition} {s : State} (h : x.deliverCond = some cond) :
    deliveryEnds l c x (sendsSector l c x y [] bytes s) =
      (goIdle l ((s.setCtx c (some (sentAll x))).frame l (.data x.tag y bytes))).later
        [.endChain c cond x.failing] := by
  simp only [deliveryEnds, h, modCtx_sendsSector]

/-- After the last frame a READ without a condition completes, and the entry walk goes on (R34). -/
theorem deliveryEnds_completes {l : LinkNo} {c : CtxNo} {x : Context} {y : SectorNo} {bytes : List Byte}
    {s : State} (h : x.deliverCond = none) :
    deliveryEnds l c x (sendsSector l c x y [] bytes s) =
      ((goIdle l ((s.setCtx c (some (sentAll x))).frame l (.data x.tag y bytes))).setCtx c
        (some { sentAll x with failing := [], cur := x.cur + 1 })).later [.walk c] := by
  have hctx := ctx_sentAll l c x (.data x.tag y bytes) s
  simp only [deliveryEnds, h, modCtx_sendsSector, advance, modCtx_goIdle _ hctx]
  rw [modCtx_some ((ctx_setCtx ..).trans (if_pos rfl)), setCtx_setCtx]
  rfl

/-- Settles O28: a frame sent before the last hands on nothing; the last ends the delivery by its condition. -/
theorem deliverySends : Obligations.DeliverySends := by
  intro l c x b y fill rest bytes s hs hp hx hb hd hdata
  have hexec := exec_deliveryFrame hs hp hx hb hd hdata
  refine ⟨fun hr => ?_, fun hr => ⟨fun cond hcond => ?_, fun hcond => ?_⟩⟩
  · have hn : ¬rest.isEmpty = true := by simpa using hr
    rw [if_neg hn, settle_calm (sendsSector l c x y rest bytes s) hs.2] at hexec
    exact hexec
  · subst hr
    rw [deliveryEnds_condition hcond] at hexec
    exact hexec
  · subst hr
    rw [deliveryEnds_completes hcond] at hexec
    exact hexec

end Sys2Proof.Machine.PresentationControl
end

section
namespace Sys2Proof.Machine.ReservationControl
open Sys2Proof.Machine.Laws

/-! SUPPORT. What leaves the Path Table and the Reservation Records alone (R65, R69): for every operation that is none of
Reservation Control's own, one equation for each of the two. The equations form a simp set. -/

/-- What each application leaves alone, the whole leaves alone. -/
theorem each_records {α : Type} {f : α → State → State}
    (h : ∀ x t, (f x t).paths = t.paths ∧ (f x t).resv = t.resv) (xs : List α) (s : State) :
    (each xs f s).paths = s.paths ∧ (each xs f s).resv = s.resv := by
  refine each_keeps (P := fun t => t.paths = s.paths ∧ t.resv = s.resv) (fun x t ht => ?_) xs s ⟨rfl, rfl⟩
  obtain ⟨hp, hr⟩ := h x t
  obtain ⟨htp, htr⟩ := ht
  exact ⟨hp.trans htp, hr.trans htr⟩

theorem ahead_records (ts : List Task) {f : State → State}
    (h : ∀ t, (f t).paths = t.paths ∧ (f t).resv = t.resv) (s : State) :
    (State.ahead ts f s).paths = s.paths ∧ (State.ahead ts f s).resv = s.resv :=
  h { s with work := [] }

section
variable (s : State)

/-! Presentation (chapter 3). -/

@[simp] theorem setFloor_records (l : LinkNo) (f : Fin 16) :
    (setFloor l f s).paths = s.paths ∧ (setFloor l f s).resv = s.resv :=
  ⟨rfl, rfl⟩

@[simp] theorem setItems_records (l : LinkNo) (xs : List Item) :
    (setItems l xs s).paths = s.paths ∧ (setItems l xs s).resv = s.resv :=
  ⟨rfl, rfl⟩

@[simp] theorem clearSet_records (l : LinkNo) :
    (clearSet l s).paths = s.paths ∧ (clearSet l s).resv = s.resv :=
  ⟨rfl, rfl⟩

@[simp] theorem raiseOn_records (ls : List LinkNo) (b : ItemBody) :
    (raiseOn ls b s).paths = s.paths ∧ (raiseOn ls b s).resv = s.resv :=
  each_records (fun l t => by simp) ls s

@[simp] theorem withdraw_records (l : LinkNo) (b : ItemBody) :
    (withdraw l b s).paths = s.paths ∧ (withdraw l b s).resv = s.resv := by
  unfold withdraw
  dsimp only
  (repeat' split) <;> simp

@[simp] theorem endLevel_records (b : ItemBody) :
    (endLevel b s).paths = s.paths ∧ (endLevel b s).resv = s.resv :=
  each_records (fun _ _ => ⟨rfl, rfl⟩) allLinks s

@[simp] theorem controllerFree_records :
    (controllerFree s).paths = s.paths ∧ (controllerFree s).resv = s.resv := by
  simp [controllerFree]

@[simp] theorem freeCtx_records (c : CtxNo) :
    (freeCtx c s).paths = s.paths ∧ (freeCtx c s).resv = s.resv := by
  simp [freeCtx]

@[simp] theorem dataLost_records (b : BufNo) (xs : List SectorNo) :
    (dataLost b xs s).paths = s.paths ∧ (dataLost b xs s).resv = s.resv := by
  unfold dataLost
  split <;> simp

/-! The Buffer Store (chapter 7). -/

@[simp] theorem joinQueue_records (d : DriveNo) (w : Work) (home : HomeTrack) :
    (joinQueue d w home s).paths = s.paths ∧ (joinQueue d w home s).resv = s.resv := by
  unfold joinQueue
  split <;> simp

@[simp] theorem leaveQueue_records (d : DriveNo) (w : Work) :
    (leaveQueue d w s).paths = s.paths ∧ (leaveQueue d w s).resv = s.resv :=
  ⟨rfl, rfl⟩

@[simp] theorem giveItem_records (b : BufNo) :
    (giveItem b s).paths = s.paths ∧ (giveItem b s).resv = s.resv := by
  unfold giveItem
  split <;> simp

@[simp] theorem joinTogether_records (bs : List BufNo) :
    (joinTogether bs s).paths = s.paths ∧ (joinTogether bs s).resv = s.resv :=
  each_records (fun b t => by simp) bs s

@[simp] theorem joinInTurn_records (bs : List BufNo) :
    (joinInTurn bs s).paths = s.paths ∧ (joinInTurn bs s).resv = s.resv :=
  each_records (fun b t => by split <;> simp) bs s

@[simp] theorem flushItems_records (d : DriveNo) :
    (flushItems d s).paths = s.paths ∧ (flushItems d s).resv = s.resv := by
  simp [flushItems]

theorem throughItems_records {join : List BufNo → State → State} (d : DriveNo)
    (h : ∀ bs t, (join bs t).paths = t.paths ∧ (join bs t).resv = t.resv) :
    (throughItems join d s).paths = s.paths ∧ (throughItems join d s).resv = s.resv :=
  h _ s

@[simp] theorem reclaim_records :
    (reclaim s).paths = s.paths ∧ (reclaim s).resv = s.resv := by
  unfold reclaim
  split <;> simp

@[simp] theorem unlist_records (gone : Waiter → Bool) :
    (unlist gone s).paths = s.paths ∧ (unlist gone s).resv = s.resv :=
  ⟨rfl, rfl⟩

@[simp] theorem reclaimCheck_records :
    (reclaimCheck s).paths = s.paths ∧ (reclaimCheck s).resv = s.resv := by
  unfold reclaimCheck
  split <;> simp

@[simp] theorem touch_records (b : BufNo) :
    (touch b s).paths = s.paths ∧ (touch b s).resv = s.resv :=
  ⟨rfl, rfl⟩

@[simp] theorem emptyBuffer_records (b : BufNo) :
    (emptyBuffer b s).paths = s.paths ∧ (emptyBuffer b s).resv = s.resv :=
  ⟨rfl, rfl⟩

@[simp] theorem suspendCtx_records (c : CtxNo) :
    (suspendCtx c s).paths = s.paths ∧ (suspendCtx c s).resv = s.resv := by
  unfold suspendCtx
  dsimp only
  (repeat' split) <;> simp

@[simp] theorem suspendStaging_records (b : BufNo) :
    (suspendStaging b s).paths = s.paths ∧ (suspendStaging b s).resv = s.resv :=
  each_records (fun c t => by simp) _ s

@[simp] theorem stage_records (c : CtxNo) :
    (stage c s).paths = s.paths ∧ (stage c s).resv = s.resv := by
  unfold stage
  (repeat' split) <;> simp

@[simp] theorem resumeStaging_records (b : BufNo) :
    (resumeStaging b s).paths = s.paths ∧ (resumeStaging b s).resv = s.resv := by
  unfold resumeStaging
  split
  · simp
  · exact each_records (fun c t => by simp) _ s

@[simp] theorem assign_records (who : Requester) (d : DriveNo) (b : BufNo) :
    (assign who d b s).paths = s.paths ∧ (assign who d b s).resv = s.resv := by
  unfold assign
  split <;> simp

theorem allocate_records {w : Waiter} {s t : State} (h : allocate w s = some t) :
    t.paths = s.paths ∧ t.resv = s.resv := by
  unfold allocate at h
  (repeat' split at h) <;> cases h <;> simp

@[simp] theorem request_records (w : Waiter) :
    (request w s).paths = s.paths ∧ (request w s).resv = s.resv := by
  unfold request
  split
  · next t ht => exact allocate_records ht
  · simp

@[simp] theorem serveWaiter_records (w : Waiter) :
    (serveWaiter w s).paths = s.paths ∧ (serveWaiter w s).resv = s.resv := by
  unfold serveWaiter
  cases ht : allocate w s with
  | none => simp
  | some t => simpa using allocate_records ht

theorem serveTimes_records (n : Nat) :
    ∀ s, (serveTimes n s).paths = s.paths ∧ (serveTimes n s).resv = s.resv := by
  induction n with
  | zero => exact fun s => ⟨rfl, rfl⟩
  | succ n ih =>
    intro s
    unfold serveTimes
    (repeat' split)
    · simp
    · simp [ih, each_records]
    · simp

@[simp] theorem serve_records :
    (serve s).paths = s.paths ∧ (serve s).resv = s.resv :=
  serveTimes_records _ s

@[simp] theorem flushTest_records (d : DriveNo) :
    (flushTest d s).paths = s.paths ∧ (flushTest d s).resv = s.resv := by
  unfold flushTest
  split
  · simp
  · exact each_records (fun c t => by simp) _ s

@[simp] theorem emptyOf_records (d : DriveNo) (b : BufNo) :
    (emptyOf d b s).paths = s.paths ∧ (emptyOf d b s).resv = s.resv := by
  simp [emptyOf]

@[simp] theorem retainRule_records (b : BufNo) :
    (retainRule b s).paths = s.paths ∧ (retainRule b s).resv = s.resv := by
  unfold retainRule
  (repeat' split) <;> simp

@[simp] theorem afterUnpin_records (b : BufNo) :
    (afterUnpin b s).paths = s.paths ∧ (afterUnpin b s).resv = s.resv := by
  unfold afterUnpin
  dsimp only
  (repeat' split) <;> simp

@[simp] theorem leftDirty_records (b : BufNo) :
    (leftDirty b s).paths = s.paths ∧ (leftDirty b s).resv = s.resv := by
  unfold leftDirty
  dsimp only
  (repeat' split) <;> simp

@[simp] theorem noteStored_records (b : BufNo) (x : SectorNo) :
    (noteStored b x s).paths = s.paths ∧ (noteStored b x s).resv = s.resv :=
  ⟨rfl, rfl⟩

@[simp] theorem storeCell_records (b : BufNo) (x : SectorNo) (data : List Byte) (dirty : Bool) :
    (storeCell b x data dirty s).paths = s.paths ∧ (storeCell b x data dirty s).resv = s.resv :=
  ⟨rfl, rfl⟩

@[simp] theorem storeFrame_records (l : LinkNo) (b : BufNo) (x : SectorNo) (data : List Byte) :
    (storeFrame l b x data s).paths = s.paths ∧ (storeFrame l b x data s).resv = s.resv := by
  unfold storeFrame
  dsimp only
  (repeat' split) <;> simp

@[simp] theorem cleanSector_records (b : BufNo) (x : SectorNo) :
    (cleanSector b x s).paths = s.paths ∧ (cleanSector b x s).resv = s.resv := by
  unfold cleanSector
  dsimp only
  split <;> simp

@[simp] theorem capture_records (k : Capture) :
    (capture k s).paths = s.paths ∧ (capture k s).resv = s.resv := by
  unfold capture
  split <;> simp

@[simp] theorem parityFailure_records (b : BufNo) (x : SectorNo) (toDrive : Bool) (by_ : CaptureBy) :
    (parityFailure b x toDrive by_ s).paths = s.paths ∧ (parityFailure b x toDrive by_ s).resv = s.resv := by
  unfold parityFailure
  dsimp only
  (repeat' split) <;> simp

@[simp] theorem unpin_records (c : CtxNo) :
    (unpin c s).paths = s.paths ∧ (unpin c s).resv = s.resv := by
  unfold unpin
  split <;> simp

@[simp] theorem clearRelocPin_records (b : BufNo) :
    (clearRelocPin b s).paths = s.paths ∧ (clearRelocPin b s).resv = s.resv := by
  simp [clearRelocPin]

@[simp] theorem destageEnded_records (d : DriveNo) (b : BufNo) :
    (destageEnded d b s).paths = s.paths ∧ (destageEnded d b s).resv = s.resv := by
  unfold destageEnded
  dsimp only
  (repeat' split) <;> simp

@[simp] theorem destageStopped_records (b : BufNo) :
    (destageStopped b s).paths = s.paths ∧ (destageStopped b s).resv = s.resv := by
  unfold destageStopped
  dsimp only
  (repeat' split) <;> simp

/-! Alternate and suspect tracks (chapters 8 and 9). -/

@[simp] theorem evalSpares_records (d : DriveNo) :
    (evalSpares d s).paths = s.paths ∧ (evalSpares d s).resv = s.resv := by
  unfold evalSpares
  dsimp only
  (repeat' split) <;> simp

@[simp] theorem endSparesLow_records (d : DriveNo) :
    (endSparesLow d s).paths = s.paths ∧ (endSparesLow d s).resv = s.resv := by
  unfold endSparesLow
  split <;> exact ⟨rfl, rfl⟩

@[simp] theorem staleMapCursors_records (d : DriveNo) :
    (staleMapCursors d s).paths = s.paths ∧ (staleMapCursors d s).resv = s.resv :=
  ⟨rfl, rfl⟩

@[simp] theorem staleSuspectCursors_records :
    (staleSuspectCursors s).paths = s.paths ∧ (staleSuspectCursors s).resv = s.resv :=
  ⟨rfl, rfl⟩

@[simp] theorem removeSuspects_records (gone : Suspect → Bool) :
    (removeSuspects gone s).paths = s.paths ∧ (removeSuspects gone s).resv = s.resv := by
  unfold removeSuspects
  split <;> simp

@[simp] theorem modSuspect_records (d : DriveNo) (h : HomeTrack) (f : Suspect → Suspect) :
    (modSuspect d h f s).paths = s.paths ∧ (modSuspect d h f s).resv = s.resv :=
  ⟨rfl, rfl⟩

@[simp] theorem report_records (d : DriveNo) (h : HomeTrack) :
    (report d h s).paths = s.paths ∧ (report d h s).resv = s.resv := by
  unfold report
  (repeat' split) <;> simp

@[simp] theorem threshold_records (d : DriveNo) (h : HomeTrack) :
    (threshold d h s).paths = s.paths ∧ (threshold d h s).resv = s.resv := by
  unfold threshold
  (repeat' split) <;> simp

@[simp] theorem recordFree_records (d : DriveNo) :
    (recordFree d s).paths = s.paths ∧ (recordFree d s).resv = s.resv := by
  unfold recordFree
  (repeat' split)
  · simp
  · simp
  · simp
  · exact each_records (fun k t => by simp) _ _

@[simp] theorem relocOutcome_records (d : DriveNo) (h : HomeTrack) (o : RelocOutcome) :
    (relocOutcome d h o s).paths = s.paths ∧ (relocOutcome d h o s).resv = s.resv := by
  unfold relocOutcome
  dsimp only
  (repeat' split) <;> simp

@[simp] theorem setSpare_records (d : DriveNo) (i : SpareNo) (k : SpareState) :
    (setSpare d i k s).paths = s.paths ∧ (setSpare d i k s).resv = s.resv :=
  ⟨rfl, rfl⟩

@[simp] theorem modReloc_records (d : DriveNo) (f : Relocation → Relocation) :
    (modReloc d f s).paths = s.paths ∧ (modReloc d f s).resv = s.resv :=
  ⟨rfl, rfl⟩

@[simp] theorem removeRecord_records (d : DriveNo) (r : Relocation) :
    (removeRecord d r s).paths = s.paths ∧ (removeRecord d r s).resv = s.resv := by
  unfold removeRecord
  split <;> simp

@[simp] theorem createRelocation_records (d : DriveNo) (h : HomeTrack) :
    (createRelocation d h s).paths = s.paths ∧ (createRelocation d h s).resv = s.resv := by
  unfold createRelocation
  dsimp only
  (repeat' split) <;> simp

@[simp] theorem beginAgain_records (d : DriveNo) :
    (beginAgain d s).paths = s.paths ∧ (beginAgain d s).resv = s.resv := by
  unfold beginAgain
  (repeat' split) <;> exact ⟨rfl, rfl⟩

@[simp] theorem holdBuffer_records (d : DriveNo) :
    (holdBuffer d s).paths = s.paths ∧ (holdBuffer d s).resv = s.resv := by
  unfold holdBuffer
  (repeat' split) <;> exact ⟨rfl, rfl⟩

@[simp] theorem relocFailed_records (d : DriveNo) (r : Relocation) :
    (relocFailed d r s).paths = s.paths ∧ (relocFailed d r s).resv = s.resv := by
  simp [relocFailed]

@[simp] theorem takeSpare_records (d : DriveNo) :
    (takeSpare d s).paths = s.paths ∧ (takeSpare d s).resv = s.resv := by
  unfold takeSpare
  (repeat' split) <;> simp

@[simp] theorem readOldEnds_records (d : DriveNo) (left : List SectorNo) :
    (readOldEnds d left s).paths = s.paths ∧ (readOldEnds d left s).resv = s.resv := by
  simp [readOldEnds]

@[simp] theorem spareFails_records (d : DriveNo) :
    (spareFails d s).paths = s.paths ∧ (spareFails d s).resv = s.resv := by
  unfold spareFails
  (repeat' split) <;> simp

@[simp] theorem writeNewEnds_records (d : DriveNo) :
    (writeNewEnds d s).paths = s.paths ∧ (writeNewEnds d s).resv = s.resv :=
  ⟨rfl, rfl⟩

@[simp] theorem commit_records (d : DriveNo) :
    (commit d s).paths = s.paths ∧ (commit d s).resv = s.resv := by
  unfold commit
  (repeat' split) <;> simp

@[simp] theorem abandon_records (d : DriveNo) :
    (abandon d s).paths = s.paths ∧ (abandon d s).resv = s.resv := by
  unfold abandon
  (repeat' split) <;> simp

@[simp] theorem written_records (d : DriveNo) (h : HomeTrack) (x : SectorNo) :
    (written d h x s).paths = s.paths ∧ (written d h x s).resv = s.resv :=
  ⟨rfl, rfl⟩

/-! The arm (chapters 1 and 5). -/

@[simp] theorem startRecal_records (d : DriveNo) (why : RecalReason) :
    (startRecal d why s).paths = s.paths ∧ (startRecal d why s).resv = s.resv :=
  ⟨rfl, rfl⟩

@[simp] theorem clearGrant_records (d : DriveNo) :
    (clearGrant d s).paths = s.paths ∧ (clearGrant d s).resv = s.resv :=
  ⟨rfl, rfl⟩

@[simp] theorem dropSelection_records (d : DriveNo) :
    (dropSelection d s).paths = s.paths ∧ (dropSelection d s).resv = s.resv :=
  ⟨rfl, rfl⟩

theorem applyPolicy_records {join : List BufNo → State → State} (d : DriveNo)
    (h : ∀ bs t, (join bs t).paths = t.paths ∧ (join bs t).resv = t.resv) :
    (applyPolicy join d s).paths = s.paths ∧ (applyPolicy join d s).resv = s.resv := by
  unfold applyPolicy
  dsimp only
  (repeat' split) <;> simp [throughItems_records _ d h]

@[simp] theorem enterIdle_records (d : DriveNo) :
    (enterIdle d s).paths = s.paths ∧ (enterIdle d s).resv = s.resv := by
  unfold enterIdle
  dsimp only
  split <;> simp [applyPolicy_records]

@[simp] theorem armIdle_records (d : DriveNo) :
    (armIdle d s).paths = s.paths ∧ (armIdle d s).resv = s.resv := by
  unfold armIdle
  split <;> simp

@[simp] theorem givePasses_records (d : DriveNo) (i : QueueItem) :
    (givePasses d i s).paths = s.paths ∧ (givePasses d i s).resv = s.resv := by
  unfold givePasses
  split <;> simp

@[simp] theorem orientTo_records (d : DriveNo) (o : Orient) :
    (orientTo d o s).paths = s.paths ∧ (orientTo d o s).resv = s.resv :=
  ⟨rfl, rfl⟩

@[simp] theorem endDestage_records (d : DriveNo) (b : BufNo) :
    (endDestage d b s).paths = s.paths ∧ (endDestage d b s).resv = s.resv :=
  ahead_records _ (fun t => by simp) _

@[simp] theorem destageNext_records (d : DriveNo) (b : BufNo) (home : HomeTrack) (after : Option SectorNo) :
    (destageNext d b home after s).paths = s.paths ∧ (destageNext d b home after s).resv = s.resv := by
  unfold destageNext
  split <;> simp

@[simp] theorem relocArrives_records (d : DriveNo) (phase : RelocPhase) :
    (relocArrives d phase s).paths = s.paths ∧ (relocArrives d phase s).resv = s.resv := by
  unfold relocArrives
  dsimp only
  (repeat' split) <;> simp

@[simp] theorem arrived_records (d : DriveNo) :
    (arrived d s).paths = s.paths ∧ (arrived d s).resv = s.resv := by
  unfold arrived
  (repeat' split) <;> simp

@[simp] theorem startSeek_records (d : DriveNo) :
    (startSeek d s).paths = s.paths ∧ (startSeek d s).resv = s.resv := by
  unfold startSeek
  (repeat' split) <;> simp

@[simp] theorem engage_records (d : DriveNo) (w : Work) :
    (engage d w s).paths = s.paths ∧ (engage d w s).resv = s.resv := by
  unfold engage
  split <;> simp

@[simp] theorem selectItem_records (d : DriveNo) (cur : Fin 604) (i : QueueItem) :
    (selectItem d cur i s).paths = s.paths ∧ (selectItem d cur i s).resv = s.resv := by
  unfold selectItem
  dsimp only
  (repeat' split) <;> simp

@[simp] theorem select_records (d : DriveNo) :
    (select d s).paths = s.paths ∧ (select d s).resv = s.resv := by
  unfold select
  (repeat' split) <;> simp

@[simp] theorem settleEnds_records (d : DriveNo) :
    (settleEnds d s).paths = s.paths ∧ (settleEnds d s).resv = s.resv := by
  unfold settleEnds
  (repeat' split) <;> simp

@[simp] theorem settleTick_records (d : DriveNo) :
    (settleTick d s).paths = s.paths ∧ (settleTick d s).resv = s.resv := by
  unfold settleTick
  (repeat' split) <;> simp

@[simp] theorem destageCut_records (d : DriveNo) (k : Selection) (b : BufNo) :
    (destageCut d k b s).paths = s.paths ∧ (destageCut d k b s).resv = s.resv := by
  unfold destageCut
  split <;> simp

/-! Chains (chapter 2). -/

@[simp] theorem withdrawFrom_records (c : CtxNo) (x : Context) :
    (withdrawFrom c x s).paths = s.paths ∧ (withdrawFrom c x s).resv = s.resv := by
  unfold withdrawFrom
  dsimp only
  (repeat' split) <;> simp

theorem beginEnding_records {arm : State → State} (c : CtxNo) (cond : Condition) (entry : Option Nat)
    (sectors : List SectorNo) (h : ∀ t, (arm t).paths = t.paths ∧ (arm t).resv = t.resv) :
    (beginEnding c cond entry sectors arm s).paths = s.paths ∧
      (beginEnding c cond entry sectors arm s).resv = s.resv := by
  unfold beginEnding
  dsimp only
  (repeat' split) <;> simp [h]

theorem endChain_records {arm : State → State} (c : CtxNo) (cond : Condition) (entry : Option Nat)
    (sectors : List SectorNo) (h : ∀ t, (arm t).paths = t.paths ∧ (arm t).resv = t.resv) (s : State) :
    (endChain c cond entry sectors arm s).paths = s.paths ∧
      (endChain c cond entry sectors arm s).resv = s.resv := by
  unfold endChain
  (repeat' split) <;> simp [beginEnding_records _ _ _ _ _ h]

@[simp] theorem raiseEnding_records (c : CtxNo) :
    (raiseEnding c s).paths = s.paths ∧ (raiseEnding c s).resv = s.resv := by
  unfold raiseEnding
  (repeat' split) <;> simp

@[simp] theorem endAtEntry_records (c : CtxNo) (cond : Condition) (sectors : List SectorNo) :
    (endAtEntry c cond sectors s).paths = s.paths ∧ (endAtEntry c cond sectors s).resv = s.resv := by
  unfold endAtEntry
  split
  · exact endChain_records _ _ _ _ (fun t => by simp) s
  · simp

@[simp] theorem detachArm_records (d : DriveNo) :
    (detachArm d s).paths = s.paths ∧ (detachArm d s).resv = s.resv := by
  unfold detachArm
  split <;> simp

@[simp] theorem withdrawQuietly_records (c : CtxNo) :
    (withdrawQuietly c s).paths = s.paths ∧ (withdrawQuietly c s).resv = s.resv := by
  unfold withdrawQuietly
  (repeat' split) <;> simp

@[simp] theorem freeWithdrawn_records (c : CtxNo) :
    (freeWithdrawn c s).paths = s.paths ∧ (freeWithdrawn c s).resv = s.resv := by
  simp [freeWithdrawn]

@[simp] theorem freeContext_records (c : CtxNo) :
    (freeContext c s).paths = s.paths ∧ (freeContext c s).resv = s.resv := by
  unfold freeContext
  split <;> simp

@[simp] theorem giveUpArm_records (c : CtxNo) (x : Context) :
    (giveUpArm c x s).paths = s.paths ∧ (giveUpArm c x s).resv = s.resv := by
  unfold giveUpArm
  split <;> simp

@[simp] theorem needArm_records (c : CtxNo) (x : Context) :
    (needArm c x s).paths = s.paths ∧ (needArm c x s).resv = s.resv := by
  unfold needArm
  split <;> simp

@[simp] theorem advance_records (c : CtxNo) :
    (advance c s).paths = s.paths ∧ (advance c s).resv = s.resv :=
  ⟨rfl, rfl⟩

@[simp] theorem walkRead_records (c : CtxNo) (x : Context) (first : SectorNo) (count : Nat) :
    (walkRead c x first count s).paths = s.paths ∧ (walkRead c x first count s).resv = s.resv := by
  unfold walkRead
  dsimp only
  (repeat' split) <;> simp

@[simp] theorem walkWrite_records (c : CtxNo) (x : Context) (first : SectorNo) (count : Nat) :
    (walkWrite c x first count s).paths = s.paths ∧ (walkWrite c x first count s).resv = s.resv := by
  unfold walkWrite
  (repeat' split) <;> simp

@[simp] theorem startStep_records (c : CtxNo) :
    (startStep c s).paths = s.paths ∧ (startStep c s).resv = s.resv := by
  unfold startStep
  (repeat' split) <;> simp

@[simp] theorem assigned_records (c : CtxNo) :
    (assigned c s).paths = s.paths ∧ (assigned c s).resv = s.resv := by
  unfold assigned
  (repeat' split) <;> simp

@[simp] theorem endStep_records (c : CtxNo) :
    (endStep c s).paths = s.paths ∧ (endStep c s).resv = s.resv := by
  simp [endStep]

@[simp] theorem nextStep_records (c : CtxNo) :
    (nextStep c s).paths = s.paths ∧ (nextStep c s).resv = s.resv := by
  unfold nextStep
  (repeat' split) <;> simp

@[simp] theorem readDone_records (c : CtxNo) :
    (readDone c s).paths = s.paths ∧ (readDone c s).resv = s.resv := by
  unfold readDone
  (repeat' split) <;> simp

@[simp] theorem deliver_records (c : CtxNo) :
    (deliver c s).paths = s.paths ∧ (deliver c s).resv = s.resv := by
  unfold deliver
  dsimp only
  (repeat' split) <;> simp

@[simp] theorem flushWait_records (c : CtxNo) :
    (flushWait c s).paths = s.paths ∧ (flushWait c s).resv = s.resv := by
  unfold flushWait
  (repeat' split) <;> simp

/-! Passes (chapter 6). -/

@[simp] theorem modPass_records (f : Pass → Pass) :
    (modPass f s).paths = s.paths ∧ (modPass f s).resv = s.resv :=
  ⟨rfl, rfl⟩

@[simp] theorem clearDropped_records (d : DriveNo) (p : Pass) :
    (clearDropped d p s).paths = s.paths ∧ (clearDropped d p s).resv = s.resv := by
  unfold clearDropped
  dsimp only
  split <;> simp

@[simp] theorem endDropped_records (d : DriveNo) (p : Pass) :
    (endDropped d p s).paths = s.paths ∧ (endDropped d p s).resv = s.resv := by
  simp [endDropped]

@[simp] theorem stopStep_records (d : DriveNo) (c : CtxNo) (cond : Condition) (x : SectorNo) (before : List Task) :
    (stopStep d c cond x before s).paths = s.paths ∧ (stopStep d c cond x before s).resv = s.resv := by
  unfold stopStep
  split <;> simp

@[simp] theorem stopFault_records (d : DriveNo) (p : Pass) (x : SectorNo) :
    (stopFault d p x s).paths = s.paths ∧ (stopFault d p x s).resv = s.resv := by
  unfold stopFault
  (repeat' split) <;> simp

@[simp] theorem withhold_records (d : DriveNo) (p : Pass) (x : SectorNo) :
    (withhold d p x s).paths = s.paths ∧ (withhold d p x s).resv = s.resv := by
  unfold withhold
  (repeat' split) <;> simp

@[simp] theorem beginSector_records (d : DriveNo) (p : Pass) :
    (beginSector d p s).paths = s.paths ∧ (beginSector d p s).resv = s.resv := by
  unfold beginSector
  dsimp only
  (repeat' split) <;> simp

@[simp] theorem grantPass_records (d : DriveNo) (o : Orient) :
    (grantPass d o s).paths = s.paths ∧ (grantPass d o s).resv = s.resv := by
  unfold grantPass cancelBooking
  dsimp only
  (repeat' split) <;> simp

@[simp] theorem miss_records (d : DriveNo) (o : Orient) :
    (miss d o s).paths = s.paths ∧ (miss d o s).resv = s.resv := by
  unfold miss
  dsimp only
  split <;> simp

@[simp] theorem claim_records (d : DriveNo) (x : SectorNo) :
    (claim d x s).paths = s.paths ∧ (claim d x s).resv = s.resv := by
  unfold claim
  (repeat' split) <;> simp

@[simp] theorem retryPass_records (d : DriveNo) (o : Orient) (left : List SectorNo) :
    (retryPass d o left s).paths = s.paths ∧ (retryPass d o left s).resv = s.resv :=
  ⟨rfl, rfl⟩

@[simp] theorem finishPass_records (d : DriveNo) (p : Pass) :
    (finishPass d p s).paths = s.paths ∧ (finishPass d p s).resv = s.resv := by
  unfold finishPass
  dsimp only
  (repeat' split) <;> simp

@[simp] theorem satisfied_records (d : DriveNo) (x : SectorNo) :
    (satisfied d x s).paths = s.paths ∧ (satisfied d x s).resv = s.resv :=
  ⟨rfl, rfl⟩

@[simp] theorem takeWritten_records (d : DriveNo) (p : Pass) (x : SectorNo) :
    (takeWritten d p x s).paths = s.paths ∧ (takeWritten d p x s).resv = s.resv := by
  unfold takeWritten
  (repeat' split) <;> simp

@[simp] theorem afterResult_records (d : DriveNo) :
    (afterResult d s).paths = s.paths ∧ (afterResult d s).resv = s.resv := by
  unfold afterResult
  dsimp only
  (repeat' split) <;> simp

@[simp] theorem takeRead_records (d : DriveNo) (p : Pass) (x : SectorNo) (data : Option (List Byte)) :
    (takeRead d p x data s).paths = s.paths ∧ (takeRead d p x data s).resv = s.resv := by
  unfold takeRead
  dsimp only
  (repeat' split) <;> simp

@[simp] theorem takeNext_records (d : DriveNo) (r : PassResult) :
    (takeNext d r s).paths = s.paths ∧ (takeNext d r s).resv = s.resv := by
  unfold takeNext
  (repeat' split) <;> simp

@[simp] theorem sectorResult_records (d : DriveNo) (sec : SectorNo) (r : PassResult) :
    (sectorResult d sec r s).paths = s.paths ∧ (sectorResult d sec r s).resv = s.resv := by
  unfold sectorResult
  (repeat' split) <;> simp

@[simp] theorem closeSector_records (d : DriveNo) :
    (closeSector d s).paths = s.paths ∧ (closeSector d s).resv = s.resv := by
  unfold closeSector
  dsimp only
  (repeat' split) <;> simp

/-! Fences (chapter 10). -/

@[simp] theorem sendSafeState_records (d : DriveNo) :
    (sendSafeState d s).paths = s.paths ∧ (sendSafeState d s).resv = s.resv := by
  unfold sendSafeState
  split <;> simp

@[simp] theorem cutPass_records (d : DriveNo) :
    (cutPass d s).paths = s.paths ∧ (cutPass d s).resv = s.resv := by
  unfold cutPass
  (repeat' split) <;> simp

@[simp] theorem enterFenced_records (d : DriveNo) :
    (enterFenced d s).paths = s.paths ∧ (enterFenced d s).resv = s.resv := by
  simp [enterFenced]

@[simp] theorem fenceArm_records (d : DriveNo) :
    (fenceArm d s).paths = s.paths ∧ (fenceArm d s).resv = s.resv := by
  unfold fenceArm
  split <;> simp

@[simp] theorem fenceWork_records (d : DriveNo) (k : Option Selection) :
    (fenceWork d k s).paths = s.paths ∧ (fenceWork d k s).resv = s.resv := by
  unfold fenceWork
  (repeat' split) <;> simp [endChain_records]

@[simp] theorem actOfFencing_records (d : DriveNo) :
    (actOfFencing d s).paths = s.paths ∧ (actOfFencing d s).resv = s.resv := by
  simp [actOfFencing]

@[simp] theorem fenceTest_records (d : DriveNo) :
    (fenceTest d s).paths = s.paths ∧ (fenceTest d s).resv = s.resv := by
  unfold fenceTest
  dsimp only
  (repeat' split) <;> simp

@[simp] theorem clearFlag_records (d : DriveNo) :
    (clearFlag d s).paths = s.paths ∧ (clearFlag d s).resv = s.resv :=
  ⟨rfl, rfl⟩

@[simp] theorem autoReleaseTest_records (d : DriveNo) :
    (autoReleaseTest d s).paths = s.paths ∧ (autoReleaseTest d s).resv = s.resv := by
  unfold autoReleaseTest
  dsimp only
  split <;> simp

@[simp] theorem releaseRecord_records (d : DriveNo) :
    (releaseRecord d s).paths = s.paths ∧ (releaseRecord d s).resv = s.resv := by
  unfold releaseRecord
  split <;> simp

@[simp] theorem releaseItems_records (d : DriveNo) :
    (releaseItems d s).paths = s.paths ∧ (releaseItems d s).resv = s.resv := by
  simp [releaseItems]

@[simp] theorem releaseFence_records (d : DriveNo) :
    (releaseFence d s).paths = s.paths ∧ (releaseFence d s).resv = s.resv := by
  unfold releaseFence
  dsimp only
  (repeat' split) <;> simp [applyPolicy_records]

@[simp] theorem raiseReady_records (d : DriveNo) (why : Option RecalReason) :
    (raiseReady d why s).paths = s.paths ∧ (raiseReady d why s).resv = s.resv := by
  unfold raiseReady
  split <;> simp

@[simp] theorem idleReady_records (d : DriveNo) (why : Option RecalReason) :
    (idleReady d why s).paths = s.paths ∧ (idleReady d why s).resv = s.resv := by
  simp [idleReady, applyPolicy_records]

@[simp] theorem recalibrated_records (d : DriveNo) :
    (recalibrated d s).paths = s.paths ∧ (recalibrated d s).resv = s.resv := by
  unfold recalibrated
  (repeat' split) <;> simp

@[simp] theorem purge_records (d : DriveNo) :
    (purge d s).paths = s.paths ∧ (purge d s).resv = s.resv :=
  each_records (fun _ => endChain_records _ _ _ _ fun _ => ⟨rfl, rfl⟩) _ s

/-! The loss of a drive (R13, R14). -/

@[simp] theorem dropDrive_records (d : DriveNo) (ready late : Bool) :
    (dropDrive d ready late s).paths = s.paths ∧ (dropDrive d ready late s).resv = s.resv := by
  unfold dropDrive
  simp [each_records, beginEnding_records]

@[simp] theorem loseBuffer_records (b : BufNo) :
    (loseBuffer b s).paths = s.paths ∧ (loseBuffer b s).resv = s.resv := by
  unfold loseBuffer
  dsimp only
  split <;> simp

@[simp] theorem losePack_records (d : DriveNo) (wasFenced : Bool) :
    (losePack d wasFenced s).paths = s.paths ∧ (losePack d wasFenced s).resv = s.resv := by
  unfold losePack
  dsimp only
  (repeat' split) <;> simp [each_records]

/-! The drive events. -/

@[simp] theorem comingReady_records (d : DriveNo) :
    (comingReady d s).paths = s.paths ∧ (comingReady d s).resv = s.resv :=
  ⟨rfl, rfl⟩

@[simp] theorem seekCheck_records (d : DriveNo) :
    (seekCheck d s).paths = s.paths ∧ (seekCheck d s).resv = s.resv := by
  unfold seekCheck
  dsimp only
  (repeat' split) <;> simp [endChain_records]

@[simp] theorem seekOutcome_records (d : DriveNo) (good : Bool) :
    (seekOutcome d good s).paths = s.paths ∧ (seekOutcome d good s).resv = s.resv := by
  unfold seekOutcome
  (repeat' split) <;> simp

@[simp] theorem indexEvent_records (d : DriveNo) :
    (indexEvent d s).paths = s.paths ∧ (indexEvent d s).resv = s.resv := by
  unfold indexEvent
  dsimp only
  (repeat' split) <;> simp

@[simp] theorem sectorEvent_records (d : DriveNo) :
    (sectorEvent d s).paths = s.paths ∧ (sectorEvent d s).resv = s.resv := by
  unfold sectorEvent
  dsimp only
  (repeat' split) <;> simp

@[simp] theorem faultOnPass_records (d : DriveNo) :
    (faultOnPass d s).paths = s.paths ∧ (faultOnPass d s).resv = s.resv := by
  unfold faultOnPass
  (repeat' split) <;> simp

/-! The link frames. -/

@[simp] theorem joinCtxWait_records (l : LinkNo) (notify : Bool) :
    (joinCtxWait l notify s).paths = s.paths ∧ (joinCtxWait l notify s).resv = s.resv := by
  unfold joinCtxWait
  split <;> simp

@[simp] theorem haltCtx_records (c : CtxNo) :
    (haltCtx c s).paths = s.paths ∧ (haltCtx c s).resv = s.resv := by
  unfold haltCtx
  (repeat' split) <;> simp [endChain_records]

@[simp] theorem resetCtx_records (c : CtxNo) :
    (resetCtx c s).paths = s.paths ∧ (resetCtx c s).resv = s.resv := by
  unfold resetCtx
  split <;> simp

@[simp] theorem resetLink_records (l : LinkNo) (enters : LinkState) :
    (resetLink l enters s).paths = s.paths ∧ (resetLink l enters s).resv = s.resv := by
  simp [resetLink, each_records]

@[simp] theorem deliveryEnds_records (l : LinkNo) (c : CtxNo) (x : Context) :
    (deliveryEnds l c x s).paths = s.paths ∧ (deliveryEnds l c x s).resv = s.resv := by
  unfold deliveryEnds
  split <;> simp

/-! Management operations (chapter 11). -/

@[simp] theorem setCursor_records (l : LinkNo) (k : Option Cursor) :
    (setCursor l k s).paths = s.paths ∧ (setCursor l k s).resv = s.resv :=
  ⟨rfl, rfl⟩

@[simp] theorem writePolicy_records (d : DriveNo) (p : Policy) :
    (writePolicy d p s).paths = s.paths ∧ (writePolicy d p s).resv = s.resv := by
  unfold writePolicy
  dsimp only
  split <;> simp [applyPolicy_records]

@[simp] theorem beginMap_records (d : DriveNo) :
    (beginMap d s).paths = s.paths ∧ (beginMap d s).resv = s.resv := by
  unfold beginMap
  dsimp only
  (repeat' split) <;> simp [each_records]

@[simp] theorem commitMap_records (d : DriveNo) :
    (commitMap d s).paths = s.paths ∧ (commitMap d s).resv = s.resv := by
  simp [commitMap]

@[simp] theorem discard_records (b : BufNo) :
    (discard b s).paths = s.paths ∧ (discard b s).resv = s.resv := by
  unfold discard
  dsimp only
  (repeat' split) <;> simp

@[simp] theorem turnSwitches_records (turned : Option (Vector Byte 8)) :
    (turnSwitches turned s).paths = s.paths ∧ (turnSwitches turned s).resv = s.resv := by
  unfold turnSwitches
  split <;> exact ⟨rfl, rfl⟩

@[simp] theorem writeLevels_records (l target : LinkNo) (levels : Vector (Fin 16) 13) :
    (writeLevels l target levels s).paths = s.paths ∧ (writeLevels l target levels s).resv = s.resv := by
  unfold writeLevels
  dsimp only
  split <;> simp

/-! The resets (R199). -/

@[simp] theorem resetPort_records (l : LinkNo) :
    (resetPort l s).paths = s.paths ∧ (resetPort l s).resv = s.resv := by
  unfold resetPort
  split <;> exact ⟨rfl, rfl⟩

@[simp] theorem dropRelocation_records (d : DriveNo) :
    (dropRelocation d s).paths = s.paths ∧ (dropRelocation d s).resv = s.resv := by
  unfold dropRelocation
  (repeat' split) <;> simp

@[simp] theorem sparesQuietly_records (d : DriveNo) :
    (sparesQuietly d s).paths = s.paths ∧ (sparesQuietly d s).resv = s.resv :=
  ⟨rfl, rfl⟩

@[simp] theorem resetArm_records (d : DriveNo) :
    (resetArm d s).paths = s.paths ∧ (resetArm d s).resv = s.resv := by
  unfold resetArm
  (repeat' split) <;> simp

@[simp] theorem policyQuietly_records (d : DriveNo) :
    (policyQuietly d s).paths = s.paths ∧ (policyQuietly d s).resv = s.resv := by
  unfold policyQuietly
  (repeat' split) <;> simp

@[simp] theorem resetBuffer_records (b : BufNo) :
    (resetBuffer b s).paths = s.paths ∧ (resetBuffer b s).resv = s.resv := by
  unfold resetBuffer
  dsimp only
  (repeat' split) <;> simp

end

end Sys2Proof.Machine.ReservationControl
end

section
namespace Sys2Proof.Machine.ReservationControl
open Sys2Proof.Machine.Laws

/-! SUPPORT. The law of one Reservation Record (R69), and what Reservation Control does to a record. -/

/-- A place of a table that holds one value throughout. -/
@[simp] theorem get_replicate {α : Type} {n : Nat} (x : α) (i : Fin n) : (Vector.replicate n x).get i = x := by
  simp [Vector.get_eq_getElem]

/-- The law of one drive's record, given the links that are ALLOWED on the drive (R67, R69). -/
def RecordLaw (allowed : LinkNo → Bool) (r : Reservation) : Prop :=
  r.waitList.Nodup ∧ (∀ l ∈ r.waitList, allowed l = true ∧ r.holder ≠ some l) ∧
  (∀ l, r.holder = some l → allowed l = true) ∧ (r.waitList ≠ [] → r.holder ≠ none)

theorem reservationLaw_iff (s : State) :
    reservationLaw s ↔ ∀ d, RecordLaw (fun l => s.allowed l d) (s.resv.get d) := Iff.rfl

/-- The law speaks of the Path Table and the Reservation Records alone. -/
theorem reservationLaw_congr {s t : State} (h : t.paths = s.paths ∧ t.resv = s.resv) (hs : reservationLaw s) :
    reservationLaw t := by
  obtain ⟨hp, hr⟩ := h
  simpa only [reservationLaw, State.allowed, hp, hr] using hs

/-- A record after a link has given up the drive, or its place on the wait list (R67, R77). -/
def lost (k : LinkNo) (r : Reservation) : Reservation := if r.holder = some k then cleared r else without k r

section
variable {allowed : LinkNo → Bool} {r : Reservation}

/-- A drive that nobody holds or waits for. -/
theorem recordLaw_free (allowed : LinkNo → Bool) : RecordLaw allowed ⟨none, []⟩ := by simp [RecordLaw]

/-- No link's path to the drive is lost. -/
theorem recordLaw_mono {allowed' : LinkNo → Bool} (h : RecordLaw allowed r)
    (ha : ∀ l, allowed l = true → allowed' l = true) : RecordLaw allowed' r := by
  obtain ⟨hd, hw, hh, hn⟩ := h
  refine ⟨hd, fun l hl => ?_, fun l hl => ha l (hh l hl), hn⟩
  obtain ⟨hal, hne⟩ := hw l hl
  exact ⟨ha l hal, hne⟩

/-- A free drive is taken by an ALLOWED link (R71). -/
theorem recordLaw_take {l : LinkNo} (h : RecordLaw allowed r) (hr : r.holder = none) (hl : allowed l = true) :
    RecordLaw allowed { r with holder := some l } := by
  obtain ⟨-, -, -, hw⟩ := h
  have hn : r.waitList = [] := by_contra fun hne => hw hne hr
  simpa [RecordLaw, hn] using hl

/-- An ALLOWED link joins the wait list of a drive that another holds (R72). -/
theorem recordLaw_join {l k : LinkNo} (h : RecordLaw allowed r) (hr : r.holder = some k) (hk : k ≠ l)
    (hn : l ∉ r.waitList) (hl : allowed l = true) :
    RecordLaw allowed { r with waitList := r.waitList ++ [l] } := by
  obtain ⟨hd, hw, hh, -⟩ := h
  refine ⟨?_, fun j hj => ?_, hh, fun _ => by simp [hr]⟩
  · exact List.nodup_append.mpr ⟨hd, List.nodup_singleton l, by rintro a ha b hb rfl; simp_all⟩
  · rcases List.mem_append.mp hj with hj | hj
    · exact hw j hj
    · obtain rfl : j = l := by simpa using hj
      exact ⟨hl, by simpa [hr] using hk⟩

/-- The hand-off keeps the law, also where the link that loses the drive, and no other, is no longer ALLOWED (R75). -/
theorem recordLaw_cleared {allowed' : LinkNo → Bool} {k : LinkNo} (h : RecordLaw allowed r)
    (ha : ∀ l, l ≠ k → allowed l = true → allowed' l = true) (hr : r.holder = some k) :
    RecordLaw allowed' (cleared r) := by
  obtain ⟨hd, hw, -, -⟩ := h
  have hw' : ∀ l ∈ r.waitList, allowed' l = true := fun l hl => by
    obtain ⟨hal, hne⟩ := hw l hl
    exact ha l (fun e => hne (e ▸ hr)) hal
  unfold cleared handed
  split
  · next hn => simpa [show r.waitList = [] from hn] using recordLaw_free allowed'
  · next l rest hn =>
    have hn : r.waitList = l :: rest := hn
    rw [hn] at hd hw'
    obtain ⟨hlr, hd⟩ := List.nodup_cons.mp hd
    refine ⟨hd, fun j hj => ⟨hw' j (List.mem_cons_of_mem _ hj), ?_⟩, fun j hj => ?_, fun _ => by simp⟩
    · rintro ⟨⟩
      exact hlr hj
    · cases hj
      exact hw' _ List.mem_cons_self

/-- A waiter that leaves keeps the law, also where it, and no other link, is no longer ALLOWED (R67). -/
theorem recordLaw_without {allowed' : LinkNo → Bool} {k : LinkNo} (h : RecordLaw allowed r)
    (ha : ∀ l, l ≠ k → allowed l = true → allowed' l = true) (hr : r.holder ≠ some k) :
    RecordLaw allowed' (without k r) := by
  obtain ⟨hd, hw, hh, hn⟩ := h
  refine ⟨hd.filter _, fun l hl => ?_, fun l hl => ha l (fun e => hr (e ▸ hl)) (hh l hl), fun hne => hn ?_⟩
  · obtain ⟨hl, hlk⟩ := List.mem_filter.mp hl
    obtain ⟨hal, hne⟩ := hw l hl
    exact ⟨ha l (by simpa using hlk) hal, hne⟩
  · rintro he
    exact hne (by simp [without, he])

/-- A link that gives up what it has of a drive may be BARRED with it (R67). -/
theorem recordLaw_lost {allowed' : LinkNo → Bool} {k : LinkNo} (h : RecordLaw allowed r)
    (ha : ∀ l, l ≠ k → allowed l = true → allowed' l = true) : RecordLaw allowed' (lost k r) := by
  unfold lost
  split
  · next hr => exact recordLaw_cleared h ha hr
  · next hr => exact recordLaw_without h ha hr

end

/-! What Reservation Control does to the records: the Path Table stands. -/

section
variable (s : State)

@[simp] theorem handOff_paths (d : DriveNo) : (handOff d s).paths = s.paths := by
  unfold handOff
  split <;> simp

@[simp] theorem clearHolder_paths (d : DriveNo) : (clearHolder d s).paths = s.paths := by simp [clearHolder]

@[simp] theorem leaveWait_paths (l : LinkNo) (d : DriveNo) : (leaveWait l d s).paths = s.paths := rfl

@[simp] theorem takeAway_paths (l : LinkNo) (d : DriveNo) : (takeAway l d s).paths = s.paths := by simp [takeAway]

@[simp] theorem losePath_paths (l : LinkNo) (d : DriveNo) : (losePath l d s).paths = s.paths := by
  unfold losePath
  split <;> simp

@[simp] theorem loseReservation_paths (l : LinkNo) (d : DriveNo) : (loseReservation l d s).paths = s.paths := by
  unfold loseReservation
  split <;> simp

/-- A change of a record is what it does to the record as it stands. -/
theorem change_congr {α : Type} {n : Nat} {v : Vector α n} {i : Fin n} {f g : α → α} (h : f (v.get i) = g (v.get i)) :
    change v i f = change v i g := by
  simp only [change, h]

theorem losePath_lost (l : LinkNo) (d : DriveNo) : (losePath l d s).resv = change s.resv d (lost l) := by
  rw [losePath_resv]
  exact change_congr (by unfold lost; split <;> rfl)

theorem loseReservation_lost (l : LinkNo) (d : DriveNo) : (loseReservation l d s).resv = change s.resv d (lost l) := by
  rw [loseReservation_resv]
  exact change_congr (by unfold lost; split <;> rfl)

end

/-! The law is kept. -/

section
variable {s t : State} {l : LinkNo} {d : DriveNo}

/-- A change of one record that keeps its law keeps the law of all. -/
theorem reservationLaw_change {f : Reservation → Reservation} (hs : reservationLaw s) (hp : t.paths = s.paths)
    (hr : t.resv = change s.resv d f)
    (hf : RecordLaw (fun l => s.allowed l d) (s.resv.get d) → RecordLaw (fun l => s.allowed l d) (f (s.resv.get d))) :
    reservationLaw t := by
  rw [reservationLaw_iff] at hs ⊢
  intro e
  simp only [State.allowed, hp, hr, get_change]
  split
  · next h =>
    subst h
    exact hf (hs d)
  · exact hs e

theorem reserve_keepsLaw (wait : Bool) (hs : reservationLaw s) : reservationLaw (reserve l d wait s) := by
  unfold reserve
  split
  · exact hs
  · next ha =>
    have ha : s.allowed l d = true := by simpa using ha
    split
    · next hr => exact reservationLaw_change hs rfl (modResv_resv ..) fun h => recordLaw_take h hr ha
    · next k hr =>
      split
      · exact hs
      · next hk =>
        split
        · next hw =>
          obtain ⟨-, hn⟩ := hw
          exact reservationLaw_change hs rfl (modResv_resv ..) fun h => recordLaw_join h hr hk (by simpa using hn) ha
        · exact hs

theorem loseReservation_keepsLaw (hs : reservationLaw s) : reservationLaw (loseReservation l d s) :=
  reservationLaw_change hs (by simp) (loseReservation_lost s l d) fun h => recordLaw_lost h fun _ _ ha => ha

theorem loseReservations_keepsLaw (hs : reservationLaw s) : reservationLaw (loseReservations l s) :=
  each_keeps (fun _ _ ht => loseReservation_keepsLaw ht) allDrives s hs

theorem losePath_keepsLaw (hs : reservationLaw s) : reservationLaw (losePath l d s) :=
  reservationLaw_change hs (by simp) (losePath_lost s l d) fun h => recordLaw_lost h fun _ _ ha => ha

/-- A RELEASE that does something gives up what its link has of the drive (R74). -/
theorem release_cases (l : LinkNo) (d : DriveNo) (s : State) :
    release l d s = s ∨ release l d s = loseReservation l d s := by
  unfold release loseReservation
  by_cases hr : (s.resv.get d).holder = some l <;> (repeat' split) <;> simp

theorem release_keepsLaw (hs : reservationLaw s) : reservationLaw (release l d s) := by
  obtain h | h := release_cases l d s
  · rwa [h]
  · rw [h]
    exact loseReservation_keepsLaw hs

theorem takeAway_keepsLaw (hr : (s.resv.get d).holder = some l) (hs : reservationLaw s) :
    reservationLaw (takeAway l d s) := by
  have h : losePath l d s = takeAway l d s := if_pos hr
  rw [← h]
  exact losePath_keepsLaw hs

end
end Sys2Proof.Machine.ReservationControl
end

section
namespace Sys2Proof.Machine.ReservationControl
open Sys2Proof.Machine.Laws

/-! SUPPORT. The laws of the Reservation Records through the internal work and the commands (R69). -/

section
variable {s : State}

theorem walk_keepsLaw (c : CtxNo) (hs : reservationLaw s) : reservationLaw (walk c s) := by
  unfold walk
  split
  · exact hs
  · next x hx =>
    split
    · split
      -- a RESERVE entry (R71, R72)
      case h_4 wait _ =>
        split
        · exact hs
        · next l _ =>
          have ht : reservationLaw (reserve l x.drive wait s) := reserve_keepsLaw wait hs
          split <;> exact reservationLaw_congr (by simp) ht
      -- a RELEASE entry (R74)
      case h_5 =>
        split
        · exact hs
        · next l _ =>
          have ht : reservationLaw (release l x.drive s) := release_keepsLaw hs
          split
          · exact reservationLaw_congr (by simp) ht
          · exact reservationLaw_congr (by simp) hs
      all_goals exact reservationLaw_congr (by simp) hs
    · exact hs

theorem runTask_keepsLaw (k : Task) (hs : reservationLaw s) : reservationLaw (runTask k s) := by
  cases k with
  | walk c => exact walk_keepsLaw c hs
  | loseReservations l => exact loseReservations_keepsLaw hs
  | _ => exact reservationLaw_congr (by simp [runTask]) hs

theorem settle_keepsLaw (hs : reservationLaw s) : reservationLaw (settle s) :=
  settle_keeps (fun _ _ hu => hu) (fun k _ hu => runTask_keepsLaw k hu) s hs

/-- The pre-step entries keep the law (R25). -/
theorem runPre_keepsLaw (l : LinkNo) (d : DriveNo) (es : List Entry) (i : Nat) (r : PreResult)
    (hr : reservationLaw r.state) : reservationLaw (runPre l d es i r).state := by
  induction es generalizing i r with
  | nil => exact hr
  | cons e es ih =>
    cases e with
    | seek | read | write | flush => exact ih _ _ hr
    | sense => exact ih _ { r with sense := some (senseOf r.state d) } hr
    | reserve wait =>
      have ht : reservationLaw (reserve l d wait r.state) := reserve_keepsLaw wait hr
      unfold runPre
      dsimp only
      split
      · exact ih _ _ ht
      · exact ht
    | release =>
      unfold runPre
      dsimp only
      split
      · exact ih _ _ (release_keepsLaw hr)
      · exact hr

theorem decideChain_keepsLaw (l : LinkNo) (d : DriveNo) (tag : Byte) (notify : Bool) (es : List Entry)
    (hs : reservationLaw s) : reservationLaw (decideChain l d tag notify es s) := by
  have hr := runPre_keepsLaw l d (preSteps es) 0 ⟨s, none, none⟩ hs
  unfold decideChain
  dsimp only
  (repeat' split) <;> exact reservationLaw_congr (by simp) hr

theorem acceptance_keepsLaw (l : LinkNo) (unit : BitVec 4) (tag : Byte) (notify : Bool) (count : Byte)
    (body : List Byte) (hs : reservationLaw s) : reservationLaw (acceptance l unit tag notify count body s) := by
  unfold acceptance
  dsimp only
  split
  · split
    · exact hs
    · split
      · exact hs
      · split
        · exact hs
        · exact decideChain_keepsLaw l _ tag notify _ hs
  · exact hs

/-! PATH-WRITE and CONTROLLER-RESET, which make more than one record's change. -/

theorem mem_allDrives (d : DriveNo) : d ∈ allDrives := by
  fin_cases d <;> decide

/-- Operations that each change one drive's record, over a list that names no drive twice. -/
theorem resv_each {f : DriveNo → State → State} {g : DriveNo → Reservation → Reservation}
    (h : ∀ d t, (f d t).resv = change t.resv d (g d)) {ds : List DriveNo} (hn : ds.Nodup) (s : State) (d : DriveNo) :
    (each ds f s).resv.get d = if d ∈ ds then g d (s.resv.get d) else s.resv.get d := by
  induction ds generalizing s with
  | nil => rfl
  | cons e es ih =>
    obtain ⟨he, hn⟩ := List.nodup_cons.mp hn
    rw [each_cons, ih hn, h, get_change]
    by_cases hd : e = d
    · subst hd
      simp [he]
    · simp [hd, Ne.symm hd]

/-- What a Path Table row that is replaced does to a drive's record (R67). -/
def rowChange (k : LinkNo) (was row : Vector Bool 8) (d : DriveNo) : Reservation → Reservation :=
  if was.get d && !(row.get d) then lost k else id

theorem writeRow_resv (k : LinkNo) (row : Vector Bool 8) (s : State) (d : DriveNo) :
    ((writeRow k row s).resv.get d) = rowChange k (s.paths.get k) row d (s.resv.get d) := by
  unfold writeRow
  rw [resv_each (g := rowChange k (s.paths.get k) row) (fun e t => ?_) (by decide), if_pos (mem_allDrives d)]
  unfold rowChange
  split
  · exact losePath_lost t k e
  · exact (change_id _ _ _ rfl).symm

theorem writeRow_paths (k : LinkNo) (row : Vector Bool 8) (s : State) :
    (writeRow k row s).paths = put s.paths k row :=
  each_keeps (P := fun t => t.paths = put s.paths k row) (fun d t ht => by split <;> simp [ht]) allDrives _ rfl

/-- A drive that the link loses is one that it had, so that the drives it keeps are ALLOWED as before (R67, R68). -/
theorem writeRow_keepsLaw (k : LinkNo) (row : Vector Bool 8) (hs : reservationLaw s) :
    reservationLaw (writeRow k row s) := by
  rw [reservationLaw_iff] at hs ⊢
  intro d
  simp only [State.allowed, writeRow_paths, writeRow_resv, get_put]
  have hd : RecordLaw (fun l => (s.paths.get l).get d) (s.resv.get d) := hs d
  unfold rowChange
  split
  · exact recordLaw_lost hd fun l hl ha => by simpa [Ne.symm hl] using ha
  · next hr =>
    refine recordLaw_mono hd fun l ha => ?_
    split
    · next e =>
      subst e
      simpa [ha] using hr
    · exact ha

theorem resetController_resv (s : State) : (resetController s).resv = Vector.replicate 8 ⟨none, []⟩ := by
  unfold resetController
  extract_lets s1 s2 s3 s4 path s5 s6 s7 s8
  have hidle (d : DriveNo) (t : State) :
      (enterIdle d (policyQuietly d t)).paths = t.paths ∧ (enterIdle d (policyQuietly d t)).resv = t.resv := by simp
  calc _ = s8.resv := (each_records hidle _ _).2
    _ = s6.resv := by simp [s8, s7, each_records]
    _ = s4.resv := by simp [s6, s5, each_records]
    _ = s2.resv := by simp [s4, s3, each_records]
    _ = Vector.replicate 8 ⟨none, []⟩ := rfl

theorem resetController_keepsLaw (s : State) : reservationLaw (resetController s) := by
  rw [reservationLaw_iff]
  intro d
  simp only [resetController_resv, get_replicate]
  exact recordLaw_free _

end
end Sys2Proof.Machine.ReservationControl
end

section
namespace Sys2Proof.Machine.ReservationControl
open Sys2Proof.Machine.Laws

/-! SUPPORT. Every command keeps the laws of the Reservation Records (R69). -/

/-- The state that a command answers obeys the laws of the Reservation Records. -/
def LeavesLaw (o : Host.Outcome State Fault Refusal) : Prop := ∀ t, o = .next t → reservationLaw t

section
variable {s : State}

/-- A command keeps the laws that its effect keeps. -/
theorem take_leavesLaw {f : State → State} (hf : ∀ u, reservationLaw u → reservationLaw (f u))
    (hs : reservationLaw s) : LeavesLaw (take s f) :=
  fun _ h => take_keeps (fun _ _ hu => hu) (fun k _ hu => runTask_keepsLaw k hu) hf hs h

/-- A command whose effect leaves the Path Table and the Reservation Records alone. -/
theorem take_leavesRecords {f : State → State} (hf : ∀ u, (f u).paths = u.paths ∧ (f u).resv = u.resv)
    (hs : reservationLaw s) : LeavesLaw (take s f) :=
  take_leavesLaw (fun u hu => reservationLaw_congr (hf u) hu) hs

/-- A management operation keeps what its effects keep; they begin with the records that its verdict saw (R193). -/
theorem manage_leavesLaw {l : LinkNo} {tag code : Byte} {needsFull lengthOk : Bool} {verdict : State → Verdict}
    (hv : ∀ u t, t.resv = u.resv → reservationLaw t → reservationLaw ((verdict u).early t)) (hs : reservationLaw s) :
    LeavesLaw (take s (manage l tag code needsFull lengthOk verdict)) := by
  have hc : ∀ u t, t.resv = u.resv → reservationLaw t →
      reservationLaw ((checkedVerdict u l needsFull lengthOk verdict).early t) := by
    intro u t hr ht
    unfold checkedVerdict
    (repeat' split)
    · exact ht
    · exact hv u t hr ht
    · exact ht
  refine take_leavesLaw (fun u hu => ?_) hs
  unfold manage
  dsimp only
  split
  · exact hu
  · exact hc _ _ rfl hu
  · exact hu
  · exact hu

/-- A management operation whose effects leave the Path Table and the Reservation Records alone. -/
theorem manage_leavesRecords {l : LinkNo} {tag code : Byte} {needsFull lengthOk : Bool} {verdict : State → Verdict}
    (hv : ∀ u t, ((verdict u).early t).paths = t.paths ∧ ((verdict u).early t).resv = t.resv)
    (hs : reservationLaw s) : LeavesLaw (take s (manage l tag code needsFull lengthOk verdict)) :=
  manage_leavesLaw (fun u t _ ht => reservationLaw_congr (hv u t) ht) hs

theorem driveVerdict_records {operand : List Byte} {decide : DriveNo → Verdict} {t : State}
    (h : ∀ d, ((decide d).early t).paths = t.paths ∧ ((decide d).early t).resv = t.resv) :
    ((driveVerdict operand decide).early t).paths = t.paths ∧
      ((driveVerdict operand decide).early t).resv = t.resv := by
  unfold driveVerdict
  split
  · exact h _
  · exact ⟨rfl, rfl⟩

theorem trackVerdict_records {operand : List Byte} {decide : DriveNo → HomeTrack → Verdict} {t : State}
    (h : ∀ d home, ((decide d home).early t).paths = t.paths ∧ ((decide d home).early t).resv = t.resv) :
    ((trackVerdict operand decide).early t).paths = t.paths ∧
      ((trackVerdict operand decide).early t).resv = t.resv := by
  unfold trackVerdict
  split
  · split
    · exact h _ _
    · exact ⟨rfl, rfl⟩
  · exact ⟨rfl, rfl⟩

theorem bufferVerdict_records {operand : List Byte} {decide : BufNo → Verdict} {t : State}
    (h : ∀ b, ((decide b).early t).paths = t.paths ∧ ((decide b).early t).resv = t.resv) :
    ((bufferVerdict operand decide).early t).paths = t.paths ∧
      ((bufferVerdict operand decide).early t).resv = t.resv := by
  unfold bufferVerdict
  split
  · exact h _
  · exact ⟨rfl, rfl⟩

/-! The commands of which Reservation Control has a part. -/

theorem execCommandFrame_leavesLaw {l : LinkNo} {unit : BitVec 4} {tag : Byte} {notify : Bool} {count : Byte}
    {body : List Byte} (hs : reservationLaw s) : LeavesLaw (execCommandFrame l unit tag notify count body s) := by
  refine take_leavesLaw (fun u hu => ?_) hs
  split
  · exact hu
  · exact acceptance_keepsLaw l unit tag notify count body (s := setFloor l 0 u) hu
  · exact hu
  · exact hu

theorem execPathWrite_leavesLaw {l : LinkNo} {tag : Byte} {operand : List Byte} (hs : reservationLaw s) :
    LeavesLaw (execPathWrite l tag operand s) := by
  refine manage_leavesLaw (fun u t _ ht => ?_) hs
  split
  · exact writeRow_keepsLaw _ _ ht
  · exact ht

theorem execForceRelease_leavesLaw {l : LinkNo} {tag : Byte} {operand : List Byte} (hs : reservationLaw s) :
    LeavesLaw (execForceRelease l tag operand s) := by
  refine manage_leavesLaw (fun u t hr ht => ?_) hs
  split
  · split
    · split
      · next hk => exact takeAway_keepsLaw (by rwa [hr]) ht
      · exact ht
    · exact ht
  · exact ht

theorem execControllerReset_leavesLaw {l : LinkNo} {tag : Byte} {operand : List Byte} (hs : reservationLaw s) :
    LeavesLaw (execControllerReset l tag operand s) := by
  refine manage_leavesLaw (fun u t _ _ => ?_) hs
  simp only [accept]
  exact resetController_keepsLaw t

theorem resv_reset (d : DriveNo) : State.reset.resv.get d = ⟨none, []⟩ := get_replicate _ d

theorem reservationLaw_reset : reservationLaw State.reset := by
  rw [reservationLaw_iff]
  intro d
  rw [resv_reset]
  exact recordLaw_free _

/-- Power-on clear leaves every drive free (R80). -/
theorem execPowerOnClear_leavesLaw (s : State) : LeavesLaw (execPowerOnClear s) := by
  rintro _ ⟨⟩
  exact reservationLaw_congr ⟨rfl, rfl⟩ reservationLaw_reset

/-- Every command keeps the laws. -/
theorem exec_leavesLaw (c : Instr) (hs : reservationLaw s) : LeavesLaw (exec c s) := by
  cases c with
  | commandFrame l unit tag notify count body => exact execCommandFrame_leavesLaw hs
  | dataFrame l tag sector data =>
    change LeavesLaw (execDataFrame l tag sector data s)
    exact take_leavesRecords (fun u => by dsimp only; (repeat' split) <;> simp) hs
  | accept l =>
    change LeavesLaw (execAccept l s)
    exact take_leavesRecords (fun u => by dsimp only; (repeat' split) <;> simp) hs
  | defer l => exact take_leavesRecords (fun u => by simp) hs
  | resume l =>
    change LeavesLaw (execResume l s)
    exact take_leavesRecords (fun u => by split <;> simp) hs
  | halt l tag =>
    change LeavesLaw (execHalt l tag s)
    exact take_leavesRecords (fun u => by dsimp only; (repeat' split) <;> simp) hs
  | linkReset l =>
    change LeavesLaw (execLinkReset l s)
    exact take_leavesRecords (fun u => by split <;> simp) hs
  | linkDown l =>
    change LeavesLaw (execLinkDown l s)
    exact take_leavesRecords (s := setLine l false s) (fun u => by split <;> simp) hs
  | linkUp l =>
    change LeavesLaw (execLinkUp l s)
    exact take_leavesRecords (s := setLine l true s) (fun u => by split <;> simp) hs
  | frameCheckFailure l frame => exact take_leavesRecords (fun _ => ⟨rfl, rfl⟩) hs
  | manageInvalid l tag why => exact manage_leavesRecords (fun _ _ => ⟨rfl, rfl⟩) hs
  | attach l tag operand turned =>
    have ht : reservationLaw (turnSwitches turned s) := reservationLaw_congr (turnSwitches_records s turned) hs
    exact manage_leavesRecords (fun u t => by unfold attachVerdict; (repeat' split) <;> exact ⟨rfl, rfl⟩) ht
  | statusRead l tag operand => exact manage_leavesRecords (fun u t => by split <;> exact ⟨rfl, rfl⟩) hs
  | mapRead l tag operand =>
    exact manage_leavesRecords (fun u t => by unfold mapReadVerdict; dsimp only; (repeat' split) <;> exact ⟨rfl, rfl⟩) hs
  | suspectRead l tag operand =>
    exact manage_leavesRecords
      (fun u t => by unfold suspectReadVerdict; dsimp only; (repeat' split) <;> exact ⟨rfl, rfl⟩) hs
  | bufferRead l tag operand => exact manage_leavesRecords (fun _ _ => ⟨rfl, rfl⟩) hs
  | captureRead l tag operand => exact manage_leavesRecords (fun _ _ => ⟨rfl, rfl⟩) hs
  | priorityWrite l tag operand =>
    exact manage_leavesRecords (fun u t => by (repeat' split) <;> simp [accept, refuse]) hs
  | pathWrite l tag operand => exact execPathWrite_leavesLaw hs
  | policyWrite l tag operand => exact manage_leavesRecords (fun u t => by split <;> simp [accept, refuse]) hs
  | mapBegin l tag operand =>
    exact manage_leavesRecords
      (fun u t => driveVerdict_records fun d => by (repeat' split) <;> simp [accept, refuse]) hs
  | mapLoad l tag operand => exact manage_leavesRecords (fun u t => by (repeat' split) <;> simp [accept, refuse]) hs
  | mapCommit l tag operand =>
    exact manage_leavesRecords (fun u t => driveVerdict_records fun d => by split <;> simp [accept, refuse]) hs
  | relocate l tag operand =>
    exact manage_leavesRecords
      (fun u t => trackVerdict_records fun d h => by (repeat' split) <;> simp [accept, refuse]) hs
  | suspectPlace l tag operand =>
    exact manage_leavesRecords (fun u t => trackVerdict_records fun d h => by
      unfold placeVerdict
      (repeat' split) <;> simp [accept, refuse]) hs
  | suspectRemove l tag operand =>
    exact manage_leavesRecords (fun u t => trackVerdict_records fun d h => by split <;> simp [accept, refuse]) hs
  | fenceForce l tag operand =>
    exact manage_leavesRecords (fun u t => driveVerdict_records fun d => by simp [accept]) hs
  | fenceClear l tag operand =>
    exact manage_leavesRecords
      (fun u t => driveVerdict_records fun d => by (repeat' split) <;> simp [accept, refuse]) hs
  | fencePurge l tag operand =>
    exact manage_leavesRecords (fun u t => driveVerdict_records fun d => by split <;> simp [accept, refuse]) hs
  | forceRelease l tag operand => exact execForceRelease_leavesLaw hs
  | bufferDiscard l tag operand =>
    exact manage_leavesRecords (fun u t => bufferVerdict_records fun b => by split <;> simp [accept, refuse]) hs
  | parityForce l tag operand =>
    exact manage_leavesRecords (fun u t => bufferVerdict_records fun b => by simp [accept]) hs
  | controllerReset l tag operand => exact execControllerReset_leavesLaw hs
  | offerTimeout l => exact take_leavesRecords (fun u => by simp) hs
  | dataTimeout l =>
    change LeavesLaw (execDataTimeout l s)
    exact take_leavesRecords (fun u => by (repeat' split) <;> simp [endChain_records]) hs
  | seekTimeout d => exact take_leavesRecords (fun u => by simp) hs
  | recalibrateTimeout d =>
    change LeavesLaw (execRecalibrateTimeout d s)
    exact take_leavesRecords (fun u => by split <;> simp) hs
  | ready d =>
    change LeavesLaw (execReady d s)
    exact take_leavesRecords (fun u => by split <;> simp) hs
  | notReady d =>
    change LeavesLaw (execNotReady d s)
    exact take_leavesRecords (fun u => by split <;> simp) hs
  | seekDone d good => exact take_leavesRecords (fun u => by simp) hs
  | recalDone d good =>
    change LeavesLaw (execRecalDone d good s)
    exact take_leavesRecords (fun u => by (repeat' split) <;> simp) hs
  | index d => exact take_leavesRecords (fun u => by simp) hs
  | sector d => exact take_leavesRecords (fun u => by simp) hs
  | sectorResult d sec r => exact take_leavesRecords (fun u => by simp) hs
  | conditionRaised d c =>
    change LeavesLaw (execConditionRaised d c s)
    exact take_leavesRecords (fun u => by dsimp only; (repeat' split) <;> simp) hs
  | conditionCleared d c =>
    change LeavesLaw (execConditionCleared d c s)
    exact take_leavesRecords (fun u => by split <;> simp) hs
  | settleEnd d =>
    change LeavesLaw (execSettleEnd d s)
    exact take_leavesRecords (fun u => by (repeat' split) <;> simp) hs
  | passEnd d e =>
    change LeavesLaw (execPassEnd d e s)
    exact take_leavesRecords (fun u => by (repeat' split) <;> simp) hs
  | deliveryFrame l =>
    change LeavesLaw (execDeliveryFrame l s)
    exact take_leavesRecords (fun u => by dsimp only; (repeat' split) <;> simp) hs
  | powerOnClear => exact execPowerOnClear_leavesLaw s
  | powerOnClearAsserted =>
    rintro _ ⟨⟩
    exact hs

end

/-- Settles O6: the law of each record survives every command, and the work that an idle step may find left over. -/
theorem reservationLawKept : Obligations.ReservationLawKept := by
  intro s t hs h
  unfold step at h
  split at h
  · cases h
    exact settle_keepsLaw hs
  · next c rest _ => exact exec_leavesLaw (s := { s with pending := rest }) c hs t h

end Sys2Proof.Machine.ReservationControl
end

section
namespace Sys2Proof.Machine.ReservationControl
open Sys2Proof.Machine.Laws Sys2Proof.Machine.DriveString Sys2Proof.Machine.ChainControl

/-! SUPPORT. Chains of one RESERVE, one RELEASE and one SENSE (R25, R71, R72, R74). -/

section
variable {l : LinkNo} {d : DriveNo} {tag : Byte} {notify : Bool} {s : State}

/-- A chain of one RESERVE is decided by its result (R25). -/
theorem decideChain_reserve (l : LinkNo) (d : DriveNo) (tag : Byte) (notify wait : Bool) (s : State) :
    decideChain l d tag notify [.reserve wait] s =
      (reserve l d wait s).frame l (endingNow (BitVec.ofNat 4 d.val) tag
        ((reserveResult s l d wait).getD .complete) ((reserveResult s l d wait).map fun _ => 0) none) := by
  have hp : preSteps [.reserve wait] = [.reserve wait] := rfl
  cases hr : reserveResult s l d wait <;> simp only [decideChain, hp, runPre, hr] <;> rfl

/-- A chain of one RELEASE is decided by its result (R25). -/
theorem decideChain_release_done (tag : Byte) (notify : Bool) (h : releaseResult s l d = none) :
    decideChain l d tag notify [.release] s =
      (release l d s).frame l (endingNow (BitVec.ofNat 4 d.val) tag .complete none none) := by
  have hp : preSteps [.release] = [.release] := rfl
  simp only [decideChain, hp, runPre, h]
  rfl

theorem decideChain_release_failed {cond : Condition} (tag : Byte) (notify : Bool)
    (h : releaseResult s l d = some cond) :
    decideChain l d tag notify [.release] s =
      s.frame l (endingNow (BitVec.ofNat 4 d.val) tag cond (some 0) none) := by
  have hp : preSteps [.release] = [.release] := rfl
  simp only [decideChain, hp, runPre, h]
  rfl

/-- A chain of one SENSE completes with the sense record as it stands (R25). -/
theorem decideChain_sense (l : LinkNo) (d : DriveNo) (tag : Byte) (notify : Bool) (s : State) :
    decideChain l d tag notify [.sense] s =
      s.frame l (endingNow (BitVec.ofNat 4 d.val) tag .complete none (some (senseOf s d))) := rfl

/-- A chain that checks 1 to 4 let pass and that is decided at once (R23, R24). -/
theorem exec_decides {count : Byte} {body : List Byte} {es : List Entry} {u : State}
    (h : reaches5 l d tag count body es s) (hu : decideChain l d tag notify es (floorZero l s) = u)
    (hw : u.work = []) :
    exec (.commandFrame l (BitVec.ofNat 4 d.val) tag notify count body) s = .next (choose l u) := by
  have ha := (acceptance_reaches5 notify h).trans hu
  obtain ⟨hi, -⟩ := h
  exact exec_commandFrame_answered hi ha hw

/-- RESERVE does not concern the floor. -/
theorem reserve_floorZero (l : LinkNo) (d : DriveNo) (wait : Bool) (s : State) :
    reserve l d wait (floorZero l s) = floorZero l (reserve l d wait s) := by
  have ha : (floorZero l s).allowed l d = s.allowed l d := rfl
  have hr : (floorZero l s).resv = s.resv := rfl
  unfold reserve
  rw [ha, hr]
  (repeat' split) <;> rfl

theorem exec_reserve {count : Byte} {body : List Byte} {wait : Bool} {result : Option Condition} {u : State}
    (h : reaches5 l d tag count body [.reserve wait] s) (hr : reserveResult s l d wait = result)
    (hu : reserve l d wait s = u) :
    exec (.commandFrame l (BitVec.ofNat 4 d.val) tag notify count body) s =
      .next (choose l ((floorZero l u).frame l
        (endingNow (BitVec.ofNat 4 d.val) tag (result.getD .complete) (result.map fun _ => 0) none))) := by
  subst hu hr
  obtain ⟨-, -, -, -, hw⟩ := reserve_rest l d wait s
  refine exec_decides h ?_ (hw.trans (reaches5_work h))
  rw [decideChain_reserve, reserve_floorZero]
  rfl

/-- The rows of R74: what a RELEASE does for an ALLOWED link. -/
theorem release_holder (ha : s.allowed l d = true) (hh : (s.resv.get d).holder = some l) :
    releaseResult s l d = none ∧ release l d s = clearHolder d s := by
  simp [releaseResult, release, ha, hh]

theorem release_waiter (ha : s.allowed l d = true) (hh : (s.resv.get d).holder ≠ some l)
    (hw : l ∈ (s.resv.get d).waitList) : releaseResult s l d = none ∧ release l d s = leaveWait l d s := by
  simp [releaseResult, release, ha, hh, hw]

theorem releaseResult_notHeld (hh : (s.resv.get d).holder ≠ some l) (hw : l ∉ (s.resv.get d).waitList) :
    releaseResult s l d = some .releaseNotHeld := by
  simp [releaseResult, hh, hw]

theorem exec_release {count : Byte} {body : List Byte} {u : State} (h : reaches5 l d tag count body [.release] s)
    (hr : releaseResult (floorZero l s) l d = none) (hu : release l d (floorZero l s) = u) (hw : u.work = []) :
    exec (.commandFrame l (BitVec.ofNat 4 d.val) tag notify count body) s =
      .next (choose l (u.frame l (endingNow (BitVec.ofNat 4 d.val) tag .complete none none))) := by
  subst hu
  exact exec_decides h (decideChain_release_done tag notify hr) hw

end

/-- Settles O15: the rows of R71 and R72 are the branches of `reserve` and `reserveResult`. -/
theorem reserveDecides : Obligations.ReserveDecides := by
  intro l d tag notify count body wait s h
  have ha : s.allowed l d = true := by
    obtain ⟨-, -, -, ha⟩ := h
    exact ha
  refine ⟨fun hh => ?_, fun hh => ?_, fun k hh hk => ⟨fun hw => ?_, fun hw hm => ?_, fun hw hm => ?_⟩⟩
  · exact exec_reserve (result := none) h (by simp [reserveResult, ha, hh]) (reserve_free l d wait s ha hh)
  · exact exec_reserve (result := none) h (by simp [reserveResult, ha, hh]) (by simp [reserve, ha, hh])
  · exact exec_reserve (result := some .reservedElsewhere) h (by simp [reserveResult, ha, hh, hk, hw])
      (by simp [reserve, ha, hh, hk, hw])
  · exact exec_reserve (result := some .reserveQueued) h (by simp [reserveResult, ha, hh, hk, hw])
      (by simp [reserve, ha, hh, hk, hm])
  · exact exec_reserve (result := some .reserveQueued) h (by simp [reserveResult, ha, hh, hk, hw])
      (by simp [reserve, ha, hh, hk, hw, hm])

/-- Settles O16: the rows of R74 are the branches of `release`, with the hand-off of R75; a SENSE has one row. -/
theorem releaseAndSense : Obligations.ReleaseAndSense := by
  intro l d tag notify count body s
  refine ⟨fun h => ?_, fun h => exec_decides h (decideChain_sense l d tag notify (floorZero l s)) ?_⟩
  · have hwork : s.work = [] := reaches5_work h
    have ha : (floorZero l s).allowed l d = true := by
      obtain ⟨-, -, -, ha⟩ := h
      exact ha
    refine ⟨fun hh hw => ?_, fun k rest hh hw => ?_, fun hh hm => ?_, fun hh hm => ?_⟩
    · obtain ⟨hr, hu⟩ := release_holder (s := floorZero l s) ha hh
      exact exec_release h hr (hu.trans (clearHolder_noWaiter hw)) hwork
    · obtain ⟨hr, hu⟩ := release_holder (s := floorZero l s) ha hh
      exact exec_release h hr (hu.trans (clearHolder_waiter hw)) (raise_work hwork)
    · obtain ⟨hr, hu⟩ := release_waiter (s := floorZero l s) ha hh hm
      exact exec_release h hr hu hwork
    · have hr := releaseResult_notHeld (s := floorZero l s) hh hm
      exact exec_decides h (decideChain_release_failed tag notify hr) hwork
  · have hwork : s.work = [] := reaches5_work h
    exact hwork

end Sys2Proof.Machine.ReservationControl
end

section
namespace Sys2Proof.Machine.ReservationControl
open Sys2Proof.Machine.Laws Sys2Proof.Machine.DriveString Sys2Proof.Machine.ChainControl

/-! SUPPORT. A reservation taken away, FORCE-RELEASE and PATH-WRITE (R66, R67, R75, R76). -/

section
variable {l k : LinkNo} {d : DriveNo} {tag code : Byte} {s u : State}

theorem readLink_byteOf (k : LinkNo) : readLink (byteOf k.val) = some k := by
  have hb : (byteOf k.val).toNat = k.val := by
    simp only [byteOf, BitVec.toNat_ofNat]
    omega
  simp [readLink, hb]

/-- Two changes of a record that agree on the record as it stands. -/
theorem modResv_congr {f g : Reservation → Reservation} (h : f (s.resv.get d) = g (s.resv.get d)) :
    s.modResv d f = s.modResv d g := by
  simp only [State.modResv, change_congr h]

theorem takeAway_eq (k : LinkNo) (d : DriveNo) (s : State) : takeAway k d s = takenAway k d s := by
  have hw : ((raise k (.reservationLost d) (s.modResv d fun r => { r with holder := none })).resv.get d).waitList =
      (s.resv.get d).waitList := by simp
  cases hn : (s.resv.get d).waitList with
  | nil =>
    have hfree : s.modResv d (fun r => { r with holder := none }) = s.modResv d fun _ => ⟨none, []⟩ :=
      modResv_congr (by rw [hn])
    simp only [takeAway, takenAway, handOff, hw, hn]
    rw [hfree]
  | cons j rest => simp only [takeAway, takenAway, handOff, hw, hn]

theorem takenAway_work (h : s.work = []) : (takenAway k d s).work = [] := by
  unfold takenAway
  split <;> simp [h]

/-- A management frame on an IDLE link of FULL authority: the answer, the effects that follow it, and the choice
(R193, R54). -/
theorem take_answers {needsFull : Bool} {verdict : State → Verdict} {answer : Answer} {early : State → State}
    (h : atFull l s) (hv : verdict (floorZero l s) = ⟨answer, early, []⟩) (hu : early (answered l code answer s) = u)
    (hw : u.work = []) : take s (manage l tag code needsFull true verdict) = .next (choose l u) := by
  obtain ⟨⟨hs, hp⟩, hf⟩ := h
  have hc : checkedVerdict (floorZero l s) l needsFull true verdict = ⟨answer, early, []⟩ := by
    have hf' : ((floorZero l s).auth.get l).full = true := hf
    simp [checkedVerdict, hf', hv]
  have hm : manage l tag code needsFull true verdict s = u.later [.choose l] := by
    subst hu
    simp only [manage, hp]
    rw [show setFloor l 0 s = floorZero l s from rfl, hc]
    rfl
  exact take_single hs hm hw rfl (choose_work hw)

/-! FORCE-RELEASE (R76). -/

/-- What FORCE-RELEASE answers and does, by the drive's holder. -/
theorem exec_forceRelease {answer : Answer} {early : State → State} (h : atFull l s)
    (hv : (if (s.resv.get d).holder = some k then accept (takeAway k d) [] else refuse .state) = ⟨answer, early, []⟩)
    (hu : early (answered l 19#8 answer s) = u) (hw : u.work = []) :
    exec (.forceRelease l tag [byteOf d.val, byteOf k.val]) s = .next (choose l u) := by
  change execForceRelease l tag [byteOf d.val, byteOf k.val] s = _
  refine take_answers h ?_ hu hw
  simp only [readDrive_byteOf, readLink_byteOf]
  exact hv

/-- Settles O44: the drive's holder decides, and what is taken away is handed on. -/
theorem forceRelease : Obligations.ForceRelease := by
  intro l k d tag s h
  have hw : s.work = [] := by
    obtain ⟨hi, -⟩ := h
    exact atIdle_work hi
  refine ⟨fun hk => ?_, fun hk => ?_⟩
  · exact exec_forceRelease h (if_pos hk) (takeAway_eq k d _) (takenAway_work hw)
  · exact exec_forceRelease h (if_neg hk) rfl hw

/-! PATH-WRITE (R66, R67). -/

/-- Where no application changes anything, the whole changes nothing. -/
theorem each_nothing {α : Type} {f : α → State → State} {xs : List α} (h : ∀ x ∈ xs, f x s = s) : each xs f s = s := by
  induction xs with
  | nil => rfl
  | cons x xs ih => rw [each_cons, h x List.mem_cons_self, ih fun y hy => h y (List.mem_cons_of_mem _ hy)]

/-- Where one application alone changes something, the whole is that one. -/
theorem each_only {α : Type} {f : α → State → State} {x : α} {xs : List α} (hn : xs.Nodup) (hx : x ∈ xs)
    (h : ∀ y, y ≠ x → ∀ t, f y t = t) : each xs f s = f x s := by
  induction xs with
  | nil => simp at hx
  | cons y ys ih =>
    obtain ⟨hy, hn⟩ := List.nodup_cons.mp hn
    rw [each_cons]
    rcases List.mem_cons.mp hx with rfl | hx
    · exact each_nothing fun z hz => h z (fun e => hy (e ▸ hz)) _
    · rw [h y (fun e => hy (e ▸ hx)), ih hn hx]

theorem length_of_readRow {rows : List Byte} {row : Vector Bool 8} (h : readRow rows = some row) : rows.length = 8 := by
  unfold readRow at h
  split at h
  · assumption
  · simp at h

/-- A row is replaced before its drives are looked at (R66). -/
def withRow (k : LinkNo) (row : Vector Bool 8) (s : State) : State := { s with paths := put s.paths k row }

/-- PATH-WRITE answers with the row as it was (R66). -/
def rowAnswered (l k : LinkNo) (s : State) : State :=
  answered l 8#8 (.accepted ((s.paths.get k).toList.map fun a => flagByte (!a))) s

theorem exec_pathWrite {rows : List Byte} {row : Vector Bool 8} (h : atFull l s) (hr : readRow rows = some row)
    (hu : writeRow k row (rowAnswered l k s) = u) (hw : u.work = []) :
    exec (.pathWrite l tag (byteOf k.val :: rows)) s = .next (choose l u) := by
  change execPathWrite l tag (byteOf k.val :: rows) s = _
  have hlen : ((byteOf k.val :: rows).length == 9) = true := by simp [length_of_readRow hr]
  unfold execPathWrite
  rw [hlen]
  refine take_answers h ?_ hu hw
  simp only [List.head?_cons, Option.bind_some, readLink_byteOf, List.tail_cons, hr]
  rfl

/-- A link that neither holds a drive nor waits for it loses nothing of it. -/
theorem leaveWait_absent (h : k ∉ (s.resv.get d).waitList) : leaveWait k d s = s := by
  have hf : ((s.resv.get d).waitList.filter fun j => j != k) = (s.resv.get d).waitList :=
    List.filter_eq_self.mpr fun j hj => by
      have hne : j ≠ k := fun e => h (e ▸ hj)
      simpa using hne
  unfold leaveWait State.modResv
  rw [change_id _ _ _ (by simp [hf])]

/-- Drives that the link has nothing of are lost without effect (R67). -/
theorem writeRow_nothing {row : Vector Bool 8}
    (h : ∀ d, (s.paths.get k).get d = true → row.get d = false →
      (s.resv.get d).holder ≠ some k ∧ k ∉ (s.resv.get d).waitList) : writeRow k row s = withRow k row s := by
  refine each_nothing fun d _ => ?_
  split
  · next hd =>
    obtain ⟨hh, hm⟩ := h d (by simp_all) (by simp_all)
    exact (if_neg hh).trans (leaveWait_absent hm)
  · rfl

/-- One drive alone is lost (R67). -/
theorem writeRow_one {row : Vector Bool 8} (hd : (s.paths.get k).get d = true)
    (hr : row = put (s.paths.get k) d false) : writeRow k row s = losePath k d (withRow k row s) := by
  subst hr
  refine (each_only (x := d) (by decide) (mem_allDrives d) fun e he t => ?_).trans (if_pos ?_)
  · simp [Ne.symm he]
  · simp [hd]

end

/-- Settles O35: a row in which the link loses nothing it has is replaced, and a lost drive is taken or left. -/
theorem pathWrite : Obligations.PathWrite := by
  intro l k tag rows row s h hr
  have hw : s.work = [] := by
    obtain ⟨hi, -⟩ := h
    exact atIdle_work hi
  refine ⟨fun hn => exec_pathWrite h hr (writeRow_nothing hn) hw, fun d hd hrow => ?_⟩
  have hlose : writeRow k row (rowAnswered l k s) = losePath k d (withRow k row (rowAnswered l k s)) :=
    writeRow_one hd hrow
  refine ⟨fun hh => ?_, fun hh => ?_⟩
  · exact exec_pathWrite h hr (hlose.trans ((if_pos hh).trans (takeAway_eq k d _))) (takenAway_work hw)
  · exact exec_pathWrite h hr (hlose.trans (if_neg hh)) hw

end Sys2Proof.Machine.ReservationControl
end

section
namespace Sys2Proof.Machine.ReservationControl
open Sys2Proof.Machine.Laws

/-! SUPPORT. Power-on clear: every table holds one value in all its places (R80, R140, R200). -/

theorem paths_reset (l : LinkNo) : State.reset.paths.get l = Vector.replicate 8 true := get_replicate _ l

theorem allowed_reset (l : LinkNo) (d : DriveNo) : State.reset.allowed l d = true := by
  simp only [State.allowed, paths_reset, get_replicate]

theorem buffer_reset (b : BufNo) : State.reset.buffer b = Buffer.powerOn := get_replicate _ b

theorem ctx_reset (c : CtxNo) : State.reset.ctx c = none := get_replicate _ c

theorem fence_reset (d : DriveNo) : State.reset.fence d = Fence.powerOn := get_replicate _ d

theorem present_reset (l : LinkNo) : State.reset.present.get l = Present.powerOn := get_replicate _ l

theorem auth_reset (l : LinkNo) : State.reset.auth.get l = ⟨false, false⟩ := get_replicate _ l

theorem port_reset (l : LinkNo) : State.reset.port l = ⟨.idle, 0, none⟩ := get_replicate _ l

/-- No chain waits for a flush where no context is in use. -/
theorem flushWaiting_free {s : State} (h : ∀ c, s.ctx c = none) (d : DriveNo) : flushWaiting s d = false := by
  simp [flushWaiting, ctxsWhere, h, sortBy]

/-- Settles O4: each record is read off the power-on state, which the pins do not concern. -/
theorem powerOnClearRecords : Obligations.PowerOnClearRecords := by
  intro s
  refine ⟨_, rfl, allowed_reset, fun d => ?_, fun b => ?_, rfl, rfl, flushWaiting_free ctx_reset, rfl, rfl, fun b => ?_,
    fun l => ?_, rfl⟩
  · exact ⟨congrArg Reservation.holder (resv_reset d), congrArg Reservation.waitList (resv_reset d)⟩
  · exact ⟨congrArg Buffer.state (buffer_reset b), buffer_reset b⟩
  · exact congrArg Buffer.parityForce (buffer_reset b)
  · exact congrArg Present.items (present_reset l)

/-- Settles O5: after power-on clear no record holds anything that a law could be broken by. -/
theorem lawsHoldAtReset : Obligations.LawsHoldAtReset := by
  refine ⟨reservationLaw_reset, fun l => ?_, fun b => ?_, List.Perm.refl allBufs, fun b c => ?_, fun d => ?_,
    fun l age => ?_⟩
  · simp [auth_reset]
  · rw [buffer_reset]
    rfl
  · simp [buffer_reset, Buffer.powerOn]
  · simp [fence_reset, Fence.powerOn]
  · simp [port_reset]

end Sys2Proof.Machine.ReservationControl
end

section
namespace Sys2Proof.Machine.ArmScheduling
open Sys2Proof.Machine.Laws Sys2Proof.Machine.DriveString

/-! SUPPORT. The settle of an arm (R92): what a SECTOR event does to it, and the seek that its end starts (R10). -/

/-- A SECTOR that meets a SETTLING arm counts towards the settle. -/
theorem sectorEvent_settling {d : DriveNo} {s : State} (h : (s.drive d).arm = .settling) :
    sectorEvent d s = settleTick d (s.modDrive d advancePosition) := by
  simp only [sectorEvent, h]

/-- The rotational position is beside the arm's own record (R5). -/
@[simp] theorem advancePosition_keeps (r : Drive) :
    (advancePosition r).arm = r.arm ∧ (advancePosition r).cyl = r.cyl := by
  unfold advancePosition
  (repeat' split) <;> exact ⟨rfl, rfl⟩

theorem settleTick_counts {d : DriveNo} {k : Selection} {s : State} (ha : (s.drive d).arm = .settling)
    (hk : (s.sched d).selection = some k) (hn : 1 < k.settle) :
    settleTick d s = s.modSched d fun q => { q with selection := some { k with settle := k.settle - 1 } } := by
  simp only [settleTick, ha, hk, if_neg hn.not_ge]

theorem settleTick_ends {d : DriveNo} {k : Selection} {s : State} (ha : (s.drive d).arm = .settling)
    (hk : (s.sched d).selection = some k) (hn : k.settle ≤ 1) : settleTick d s = settleEnds d s := by
  simp only [settleTick, ha, hk, if_pos hn]

/-- A seek to another cylinder is ordered (R10). -/
theorem startSeek_away {d : DriveNo} {k : Selection} {s : State} (hk : (s.sched d).selection = some k)
    (hc : (s.drive d).cyl ≠ some k.phys.cyl) :
    startSeek d s =
      (s.modDrive d fun r => { r with arm := .seeking, seekTarget := some k.phys.cyl }).order d (.seek k.phys.cyl) := by
  simp only [startSeek, hk, if_neg hc]

/-- The selection of a settle that has ended (R92). -/
def settled (d : DriveNo) (k : Selection) (s : State) : State :=
  s.modSched d fun q => { q with selection := some { k with reversal := false, settle := 0 } }

/-- The arm as a settle that ends away from its cylinder leaves it: the sweep turned on a reversal, and the seek under
way (R92, R10). -/
def settledSeek (d : DriveNo) (k : Selection) (s : State) : State :=
  ((settled d k s).modDrive d fun r =>
    { r with sweep := if k.reversal then r.sweep.flip else r.sweep, arm := .seeking,
             seekTarget := some k.phys.cyl }).order d (.seek k.phys.cyl)

theorem settled_modDrive (d : DriveNo) (k : Selection) (f : Drive → Drive) (s : State) :
    settled d k (s.modDrive d f) = (settled d k s).modDrive d f := rfl

theorem startSeek_settled {d : DriveNo} {k : Selection} {s : State} (hc : (s.drive d).cyl ≠ some k.phys.cyl) :
    startSeek d (settled d k s) =
      ((settled d k s).modDrive d fun r => { r with arm := .seeking, seekTarget := some k.phys.cyl }).order d
        (.seek k.phys.cyl) :=
  startSeek_away (k := { k with reversal := false, settle := 0 }) (by simp [settled, State.sched]) hc

theorem settleEnds_away {d : DriveNo} {k : Selection} {s : State} (hk : (s.sched d).selection = some k)
    (hc : (s.drive d).cyl ≠ some k.phys.cyl) : settleEnds d s = settledSeek d k s := by
  simp only [settleEnds, hk]
  cases hr : k.reversal with
  | false =>
    simp only [settledSeek, hr, Bool.false_eq_true, if_false]
    exact startSeek_settled hc
  | true =>
    have hflip : ((s.modDrive d fun r => { r with sweep := r.sweep.flip }).drive d).cyl ≠ some k.phys.cyl := by
      simpa using hc
    have hseek := startSeek_settled hflip
    rw [settled_modDrive, modDrive_modDrive] at hseek
    simp only [settledSeek, hr, if_true]
    exact hseek

/-- A SECTOR of a settle with more than one to go. -/
theorem sectorEvent_settle_counts {d : DriveNo} {k : Selection} {s : State} (ha : (s.drive d).arm = .settling)
    (hk : (s.sched d).selection = some k) (hn : 1 < k.settle) :
    sectorEvent d s = (s.modDrive d advancePosition).modSched d fun q =>
      { q with selection := some { k with settle := k.settle - 1 } } :=
  (sectorEvent_settling ha).trans (settleTick_counts (by simpa using ha) hk hn)

/-- The SECTOR that ends a settle away from the arm's cylinder. -/
theorem sectorEvent_settle_ends {d : DriveNo} {k : Selection} {s : State} (ha : (s.drive d).arm = .settling)
    (hk : (s.sched d).selection = some k) (hn : k.settle ≤ 1) (hc : (s.drive d).cyl ≠ some k.phys.cyl) :
    sectorEvent d s = settledSeek d k (s.modDrive d advancePosition) :=
  ((sectorEvent_settling ha).trans (settleTick_ends (by simpa using ha) hk hn)).trans
    (settleEnds_away hk (by simpa using hc))

/-- SETTLE_END is the SECTOR that ends the settle, and nothing before it (log 8). -/
theorem exec_settleEnd {d : DriveNo} {k : Selection} {s t : State} (hs : calm s) (ha : (s.drive d).arm = .settling)
    (hk : (s.sched d).selection = some k) (ht : (if k.settle ≤ 1 then sectorEvent d s else s) = t)
    (hw : t.work = []) : exec (.settleEnd d) s = .next t := by
  change execSettleEnd d s = _
  unfold execSettleEnd
  refine take_effect hs ?_ hw
  simp only [ha, hk]
  exact ht

/-- Settles O51: the SECTORs left decide whether the event counts or ends it, for SECTOR and SETTLE_END alike. -/
theorem settleEnds : Obligations.SettleEnds := by
  intro d k s hs ha hk
  refine ⟨fun hn => ⟨?_, ?_⟩, fun hn hc => ⟨?_, ?_⟩⟩
  · exact take_effect hs (sectorEvent_settle_counts ha hk hn) hs.2
  · exact exec_settleEnd hs ha hk (if_neg hn.not_ge) hs.2
  · exact take_effect hs (sectorEvent_settle_ends ha hk hn hc) hs.2
  · exact exec_settleEnd hs ha hk ((if_pos hn).trans (sectorEvent_settle_ends ha hk hn hc)) hs.2

end Sys2Proof.Machine.ArmScheduling
end

section
namespace Sys2Proof.Machine.ArmScheduling
open Sys2Proof.Machine.Laws

/-! SUPPORT. The choice of the arm's next work (R89): its steps, each where those before it yield nothing. -/

/-- In a list in rank order, an element that a test finds is the oldest that meets it. -/
theorem find?_oldest {p : QueueItem → Bool} {xs : List QueueItem} {i : QueueItem}
    (hr : xs.Pairwise fun a b => a.rank < b.rank) (hi : xs.find? p = some i) :
    p i = true ∧ ∀ j ∈ xs, p j = true → i.rank ≤ j.rank := by
  obtain ⟨hp, before, after, rfl, hb⟩ := List.find?_eq_some_iff_append.mp hi
  obtain ⟨-, hr, -⟩ := List.pairwise_append.mp hr
  refine ⟨hp, fun j hj hpj => ?_⟩
  rcases List.mem_append.mp hj with hj | hj
  · exact absurd hpj (by simpa using hb j hj)
  · rcases List.mem_cons.mp hj with rfl | hj
    · exact le_rfl
    · exact (List.rel_of_pairwise_cons hr hj).le

theorem find?_or_some {p : QueueItem → Bool} {xs : List QueueItem} (o : Option QueueItem)
    (h : ∃ j ∈ xs, p j = true) : (xs.find? p).or o = xs.find? p := by
  obtain ⟨i, hi⟩ := Option.isSome_iff_exists.mp (List.find?_isSome.mpr h)
  rw [hi, Option.some_or]

theorem find?_or_none {p : QueueItem → Bool} {xs : List QueueItem} (o : Option QueueItem)
    (h : ∀ j ∈ xs, ¬p j = true) : (xs.find? p).or o = o := by
  rw [List.find?_eq_none.mpr h, Option.none_or]

/-! The nearest item. -/

theorem nearest_none_iff {dist : QueueItem → Nat} {xs : List QueueItem} : nearest dist xs = none ↔ xs = [] := by
  cases xs with
  | nil => simp [nearest]
  | cons x r =>
    simp only [nearest, reduceCtorEq, iff_false]
    (repeat' split) <;> simp

theorem nearest_mem {dist : QueueItem → Nat} {xs : List QueueItem} {i : QueueItem} (h : nearest dist xs = some i) :
    i ∈ xs := by
  induction xs with
  | nil => simp [nearest] at h
  | cons x r ih =>
    unfold nearest at h
    split at h
    · next j hj =>
      split at h
      · exact List.mem_cons_of_mem _ (ih (hj.trans h))
      · simp_all
    · simp_all

/-- In a list in rank order the nearest item is the oldest of those at its distance. -/
theorem nearest_least {dist : QueueItem → Nat} {xs : List QueueItem} {i : QueueItem}
    (hr : xs.Pairwise fun a b => a.rank < b.rank) (h : nearest dist xs = some i) :
    ∀ j ∈ xs, dist i ≤ dist j ∧ (dist i = dist j → i.rank ≤ j.rank) := by
  induction xs generalizing i with
  | nil => simp
  | cons x r ih =>
    obtain ⟨hx, hr⟩ := List.pairwise_cons.mp hr
    intro j hj
    cases hn : nearest dist r with
    | none =>
      obtain rfl := nearest_none_iff.mp hn
      obtain rfl : x = i := by simpa [nearest] using h
      obtain rfl : j = x := by simpa using hj
      exact ⟨le_rfl, fun _ => le_rfl⟩
    | some y =>
      have hy := ih hr hn
      simp only [nearest, hn] at h
      split at h
      · next hlt =>
        obtain rfl := Option.some.inj h
        rcases List.mem_cons.mp hj with rfl | hj
        · exact ⟨hlt.le, fun he => absurd he hlt.ne⟩
        · exact hy j hj
      · next hge =>
        obtain rfl := Option.some.inj h
        rcases List.mem_cons.mp hj with rfl | hj
        · exact ⟨le_rfl, fun _ => le_rfl⟩
        · exact ⟨(not_lt.mp hge).trans (hy j hj).1, fun _ => (hx j hj).le⟩

/-! The steps of R89. -/

/-- The eligible items of a drive's Request Queue (R85). -/
def candidates (s : State) (d : DriveNo) : List QueueItem := (s.sched d).queue.filter (eligible s d)

/-- An item has reached the Pass Limit, where there is one (step 2). -/
def due (s : State) (d : DriveNo) (i : QueueItem) : Prop :=
  (s.policy d).passLimit ≠ 0 ∧ (s.policy d).passLimit ≤ i.passes

/-- The candidate of step 2: the first item of the queue that is due. -/
def oldestDue (s : State) (d : DriveNo) : Option QueueItem :=
  (candidates s d).find? fun i => (s.policy d).passLimit ≠ 0 ∧ (s.policy d).passLimit ≤ i.passes

/-- The physical cylinder of an item (R88). -/
def cylOf (s : State) (d : DriveNo) (i : QueueItem) : Fin 604 := (physOf s d i).cyl

/-- An item's cylinder lies ahead of the arm in its sweep (step 4). -/
def inFront (s : State) (d : DriveNo) (cur : Fin 604) (i : QueueItem) : Prop :=
  ahead (s.drive d).sweep cur (cylOf s d i) = true

/-- How far an item's cylinder lies from the arm's. -/
def away (s : State) (d : DriveNo) (cur : Fin 604) (i : QueueItem) : Nat := distance (cylOf s d i) cur

/-- The items in front of the arm, in rank order. -/
def frontItems (s : State) (d : DriveNo) (cur : Fin 604) : List QueueItem :=
  (candidates s d).filter fun i => ahead (s.drive d).sweep cur (cylOf s d i)

section
variable {s : State} {d : DriveNo} {cur : Fin 604}

theorem mem_frontItems {i : QueueItem} : i ∈ frontItems s d cur ↔ i ∈ candidates s d ∧ inFront s d cur i :=
  List.mem_filter

/-- Step 1: the relocation goes first. -/
theorem nextItem_relocation {r : QueueItem} (h : relocItem s d = some r) : nextItem s d cur = some r := by
  simp only [nextItem, h, Option.some_or]

/-- Without a Pass Limit no item is due. -/
theorem oldestDue_eq (s : State) (d : DriveNo) :
    (if (s.policy d).passLimit = 0 then none
      else (candidates s d).find? fun i => (s.policy d).passLimit ≤ i.passes) = oldestDue s d := by
  unfold oldestDue
  split
  · next h => exact (List.find?_eq_none.mpr (by simp [h])).symm
  · next h => simp [h]

/-- Steps 2 to 5, where no relocation is a candidate. -/
theorem nextItem_queue (h : relocItem s d = none) : nextItem s d cur =
    (oldestDue s d).or (((candidates s d).find? fun i => cylOf s d i == cur).or
      ((nearest (away s d cur) (frontItems s d cur)).or (nearest (away s d cur) (candidates s d)))) := by
  simp only [nextItem, h, Option.none_or]
  exact congrArg (Option.or · _) (oldestDue_eq s d)

theorem nextItem_due (h : relocItem s d = none) (hd : ∃ j ∈ candidates s d, due s d j) :
    nextItem s d cur = oldestDue s d := by
  rw [nextItem_queue h]
  exact find?_or_some _ (by simpa [due] using hd)

theorem nextItem_afterDue (h : relocItem s d = none) (hd : ∀ j ∈ candidates s d, ¬due s d j) : nextItem s d cur =
    ((candidates s d).find? fun i => cylOf s d i == cur).or
      ((nearest (away s d cur) (frontItems s d cur)).or (nearest (away s d cur) (candidates s d))) := by
  rw [nextItem_queue h]
  exact find?_or_none _ (by simpa [due] using hd)

theorem nextItem_sameCylinder (h : relocItem s d = none) (hd : ∀ j ∈ candidates s d, ¬due s d j)
    (hc : ∃ j ∈ candidates s d, cylOf s d j = cur) :
    nextItem s d cur = (candidates s d).find? fun i => cylOf s d i == cur := by
  rw [nextItem_afterDue h hd]
  exact find?_or_some _ (by simpa using hc)

theorem nextItem_elsewhere (h : relocItem s d = none) (hn : ∀ j ∈ candidates s d, ¬due s d j ∧ cylOf s d j ≠ cur) :
    nextItem s d cur = (nearest (away s d cur) (frontItems s d cur)).or (nearest (away s d cur) (candidates s d)) := by
  rw [nextItem_afterDue h fun j hj => (hn j hj).1]
  exact find?_or_none _ fun j hj => by simpa using (hn j hj).2

/-- An item of the queue that is chosen is an eligible one. -/
theorem nextItem_mem {i : QueueItem} (h : relocItem s d = none) (hi : nextItem s d cur = some i) :
    i ∈ candidates s d := by
  simp only [nextItem_queue h, Option.or_eq_some_iff] at hi
  rcases hi with hi | ⟨-, hi | ⟨-, hi | ⟨-, hi⟩⟩⟩
  · exact List.mem_of_find?_eq_some hi
  · exact List.mem_of_find?_eq_some hi
  · exact (mem_frontItems.mp (nearest_mem hi)).1
  · exact nearest_mem hi

/-- Nothing is chosen from a queue exactly where nothing in it is eligible. -/
theorem nextItem_none_iff (h : relocItem s d = none) : nextItem s d cur = none ↔ candidates s d = [] := by
  refine ⟨fun hn => ?_, fun he => ?_⟩
  · simp only [nextItem_queue h, Option.or_eq_none_iff] at hn
    obtain ⟨-, -, -, hn⟩ := hn
    exact nearest_none_iff.mp hn
  · simp [nextItem_queue h, oldestDue, frontItems, he, nearest]

variable {i : QueueItem} (h : relocItem s d = none) (hr : (candidates s d).Pairwise fun a b => a.rank < b.rank)
  (hi : nextItem s d cur = some i)
include h hr hi

/-- Step 2: the oldest at the Pass Limit. -/
theorem nextItem_oldestDue (hd : ∃ j ∈ candidates s d, due s d j) :
    due s d i ∧ ∀ j ∈ candidates s d, due s d j → i.rank ≤ j.rank := by
  rw [nextItem_due h hd] at hi
  simpa [due] using find?_oldest hr hi

/-- Step 3: the oldest on the arm's cylinder. -/
theorem nextItem_oldestHere (hd : ∀ j ∈ candidates s d, ¬due s d j) (hc : ∃ j ∈ candidates s d, cylOf s d j = cur) :
    cylOf s d i = cur ∧ ∀ j ∈ candidates s d, cylOf s d j = cur → i.rank ≤ j.rank := by
  rw [nextItem_sameCylinder h hd hc] at hi
  simpa using find?_oldest hr hi

/-- Steps 4 and 5: an item in front where there is one, and the nearest on its side, the oldest of equals. -/
theorem nextItem_nearest (hn : ∀ j ∈ candidates s d, ¬due s d j ∧ cylOf s d j ≠ cur) :
    ((∃ j ∈ candidates s d, inFront s d cur j) → inFront s d cur i) ∧
    ∀ j ∈ candidates s d, (inFront s d cur j ↔ inFront s d cur i) →
      away s d cur i ≤ away s d cur j ∧ (away s d cur i = away s d cur j → i.rank ≤ j.rank) := by
  rw [nextItem_elsewhere h hn] at hi
  cases hf : nearest (away s d cur) (frontItems s d cur) with
  | some y =>
    obtain rfl : y = i := by simpa [hf] using hi
    obtain ⟨-, hy⟩ := mem_frontItems.mp (nearest_mem hf)
    exact ⟨fun _ => hy, fun j hj hside =>
      nearest_least (hr.filter _) hf j (mem_frontItems.mpr ⟨hj, hside.mpr hy⟩)⟩
  | none =>
    rw [hf, Option.none_or] at hi
    refine ⟨fun ⟨j, hj, hfront⟩ => ?_, fun j hj _ => nearest_least hr hi j hj⟩
    have hm : j ∈ frontItems s d cur := mem_frontItems.mpr ⟨hj, hfront⟩
    simp [nearest_none_iff.mp hf] at hm

end

/-- Settles O57: the steps of R89 in turn, each the first that yields a candidate. -/
theorem selectionOrder : Obligations.SelectionOrder := by
  intro s d cur i
  exact ⟨fun r => nextItem_relocation,
    fun h hr hi => ⟨nextItem_mem h hi, nextItem_oldestDue h hr hi, nextItem_oldestHere h hr hi,
      nextItem_nearest h hr hi⟩,
    nextItem_none_iff⟩

end Sys2Proof.Machine.ArmScheduling
end

section
namespace Sys2Proof.Machine.StringDataPath
open Sys2Proof.Machine.Laws Sys2Proof.Machine.DriveString

/-! SUPPORT. A claim (R103, R104): whether the path is granted, what a granted pass begins with (R108), and a miss. -/

/-- The path is FREE, or nobody holds it and it is booked for the drive (R103). -/
def pathFree (d : DriveNo) (s : State) : Prop :=
  s.path.grant = none ∧ (s.path.booking = none ∨ ∃ w, s.path.booking = some ⟨d, w⟩)

section
variable {d : DriveNo} {o : Orient} {s : State}

/-- A SECTOR that meets an ORIENTING arm with a known position may be a claim (R103). -/
theorem sectorEvent_claims {x : SectorNo} (ha : (s.drive d).arm = .orienting)
    (hi : (advancePosition (s.drive d)).indexSeen = true) (hx : (advancePosition (s.drive d)).position = some x) :
    sectorEvent d s = claim d x (s.modDrive d advancePosition) := by
  simp only [sectorEvent, ha, drive_modDrive, if_true, hi, hx]

theorem claim_granted (ha : (s.drive d).arm = .orienting) (ho : s.orients.get d = some o) (hf : pathFree d s) :
    claim d o.first s = grantPass d o s := by
  obtain ⟨hg, hb | ⟨w, hb⟩⟩ := hf <;> simp [claim, ha, ho, hg, hb]

theorem claim_missed (ha : (s.drive d).arm = .orienting) (ho : s.orients.get d = some o) (hf : ¬pathFree d s) :
    claim d o.first s = miss d o s := by
  simp only [claim, ho, ha, true_and, if_true]
  cases hg : s.path.grant with
  | some p => rfl
  | none =>
    cases hb : s.path.booking with
    | none => exact absurd ⟨hg, .inl hb⟩ hf
    | some k => exact if_neg fun hk => hf ⟨hg, .inr ⟨k.work, by rw [hb, ← hk]⟩⟩

/-- A miss below the Miss Limit, or one that finds the path booked (R103). -/
theorem miss_counts (h : upTo Config.countMax o.miss < (s.policy d).missLimit ∨ s.path.booking ≠ none) :
    miss d o s = s.setOrient d (some { o with miss := upTo Config.countMax o.miss }) :=
  if_neg fun ⟨hl, hb⟩ => h.elim hl.not_gt (· hb)

/-- A miss at the Miss Limit that finds the path not booked (R104). -/
theorem miss_books (hl : (s.policy d).missLimit ≤ upTo Config.countMax o.miss) (hb : s.path.booking = none) :
    miss d o s = { s.setOrient d (some { o with miss := upTo Config.countMax o.miss }) with
      path := ⟨s.path.grant, some ⟨d, o.work⟩⟩ } :=
  if_pos ⟨hl, hb⟩

/-! The first sector of a pass. -/

theorem beginSector_read {p : Pass} (h : p.dir = .read) :
    beginSector d p s = modPass (fun q => { q with begun := p.begun + 1 }) s := by
  simp only [beginSector, h, true_or, if_true]

/-- The next sector of a STEP's or DESTAGE's write pass leaves the buffer, of good parity (R113). -/
theorem beginSector_sends {p : Pass} {data : List Byte} {dirty : Bool} (h : p.dir = .write) (hl : p.begun < p.length)
    (hw : ∀ ph, p.work ≠ .relocation ph) (ha : (s.buffer p.buffer).assigned = some (p.drive, p.home))
    (hc : (s.buffer p.buffer).cell (p.sector p.begun) = some ⟨data, dirty, false⟩) :
    beginSector d p s =
      (modPass (fun q => { q with begun := p.begun + 1 }) s).order d (.writeData (p.sector p.begun) data) := by
  have hh : p.holds s = true := by simp [Pass.holds, ha]
  simp only [beginSector, h, reduceCtorEq, false_or, if_neg hl.not_ge, hh, if_true, hc, Bool.false_eq_true, if_false]

/-- The pass of a request, as many of its sectors begun as given (R108). -/
def passFor (d : DriveNo) (o : Orient) (begun : Nat) : Pass :=
  ⟨d, o.work, o.dir, o.buffer, o.home, o.first, o.last, begun, 0, 0, [], [], [], false⟩

theorem passFor_sector (n : Nat) : (passFor d o n).sector 0 = o.first := by
  simp [Pass.sector, passFor]

/-- The arm TRANSFERRING under a grant that leaves no booking. -/
def granted (d : DriveNo) (o : Orient) (begun : Nat) (s : State) : State :=
  { s.setArm d .transferring with path := ⟨some (passFor d o begun), none⟩ }

/-- The path as a grant finds it: a booking for the drive goes (R106). -/
theorem cancelBooking_free (hf : pathFree d s) : cancelBooking d s = { s with path := ⟨none, none⟩ } := by
  obtain ⟨hg, hb | ⟨w, hb⟩⟩ := hf <;> simp [cancelBooking, hg, hb]

theorem grantPass_read {k : Selection} (hf : pathFree d s) (hk : (s.sched d).selection = some k)
    (hd : o.dir = .read) :
    grantPass d o s = (granted d o 1 s).order d (.readPass k.phys.head o.first o.last) := by
  have hb : beginSector d (passFor d o 0) ((granted d o 0 s).order d (.readPass k.phys.head o.first o.last)) =
      (granted d o 1 s).order d (.readPass k.phys.head o.first o.last) := beginSector_read hd
  rw [← hb]
  simp only [grantPass, hk, cancelBooking_free hf, granted, passFor, hd]
  rfl

theorem grantPass_write {k : Selection} {data : List Byte} {dirty : Bool} (hf : pathFree d s)
    (hk : (s.sched d).selection = some k) (hd : o.dir = .write) (hl : o.first ≤ o.last)
    (hw : ∀ ph, o.work ≠ .relocation ph) (hn : (s.fence d).causes.writeFault = false)
    (ha : (s.buffer o.buffer).assigned = some (d, o.home))
    (hc : (s.buffer o.buffer).cell o.first = some ⟨data, dirty, false⟩) :
    grantPass d o s = ((granted d o 1 s).order d (.writePass k.phys.head o.first o.last)).order d
      (.writeData o.first data) := by
  have hx := passFor_sector (d := d) (o := o) 0
  have hb : beginSector d (passFor d o 0) ((granted d o 0 s).order d (.writePass k.phys.head o.first o.last)) =
      ((granted d o 1 s).order d (.writePass k.phys.head o.first o.last)).order d (.writeData o.first data) := by
    rw [← hx] at hc ⊢
    exact beginSector_sends hd (Nat.sub_pos_of_lt (Nat.lt_succ_of_le hl)) hw ha hc
  rw [← hb]
  simp only [grantPass, hk, cancelBooking_free hf, granted, passFor, hd]
  exact if_neg (Bool.eq_false_iff.mp hn)

end

/-- A SECTOR that brings an ORIENTING arm its target sector (R103). -/
theorem exec_sector_claims {d : DriveNo} {o : Orient} {s u : State} (hs : calm s)
    (ha : (s.drive d).arm = .orienting) (hi : (advancePosition (s.drive d)).indexSeen = true)
    (hx : (advancePosition (s.drive d)).position = some o.first)
    (hu : claim d o.first (s.modDrive d advancePosition) = u) (hw : u.work = []) :
    exec (.sector d) s = .next u :=
  take_effect hs ((sectorEvent_claims ha hi hx).trans hu) hw

theorem advancePosition_policy (r : Drive) : (advancePosition r).policy = r.policy := by
  unfold advancePosition
  (repeat' split) <;> rfl

/-- Settles O52: the claim by the path, then a grant by direction and a miss by the Miss Limit and the booking. -/
theorem claimDecided : Obligations.ClaimDecided := by
  intro d o k x s hs ha ho hk hx hi hp t free missed
  subst hx
  have ha' : (t.drive d).arm = .orienting := by simpa [t] using ha
  have hl : (t.policy d).missLimit = (s.policy d).missLimit := by
    simp [t, State.policy, advancePosition_policy]
  refine ⟨fun hf hd => ?_, fun data dirty hf hd hle hw hn hb hc => ?_, fun hf hm => ?_, fun hf hm hb => ?_⟩
  · have hg := (claim_granted (s := t) ha' ho hf).trans (grantPass_read hf hk hd)
    simp only [granted, passFor, hd] at hg
    exact exec_sector_claims hs ha hi hp hg hs.2
  · have hg := (claim_granted (s := t) ha' ho hf).trans (grantPass_write hf hk hd hle hw hn hb hc)
    simp only [granted, passFor, hd] at hg
    exact exec_sector_claims hs ha hi hp hg hs.2
  · rw [← hl] at hm
    exact exec_sector_claims hs ha hi hp ((claim_missed ha' ho hf).trans (miss_counts hm)) hs.2
  · rw [← hl] at hm
    exact exec_sector_claims hs ha hi hp ((claim_missed ha' ho hf).trans (miss_books hm hb)) hs.2

end Sys2Proof.Machine.StringDataPath
end

section
namespace Sys2Proof.Machine.StringDataPath
open Sys2Proof.Machine.Laws Sys2Proof.Machine.DriveString Sys2Proof.Machine.PresentationControl

/-! SUPPORT. A SECTOR-RESULT (R108, R110, R113): to which pass it belongs, what its sector's buffer and track take from
it, and what follows inside the pass and at its last sector. -/

/-- A pass is in progress exactly while its drive is TRANSFERRING under its grant (R101). -/
theorem passOf_eq_some_iff {d : DriveNo} {p : Pass} {s : State} :
    passOf s d = some p ↔ (s.drive d).arm = .transferring ∧ s.path.grant = some p ∧ p.drive = d := by
  simp [passOf, Option.filter_eq_some_iff]

/-- The pass in progress, not dropped by a Controller Reset, has the result of one of its sectors due (R108): the data
of that sector has left or is expected, and no event has closed it. -/
structure ResultDue (d : DriveNo) (p : Pass) (s : State) : Prop where
  pass : passOf s d = some p
  kept : p.dropped = false
  unclosed : p.closed ≤ p.taken
  begun : p.taken < p.begun
  within : p.taken < p.length

/-- The pass with one more result taken. -/
def counted (p : Pass) : Pass := { p with taken := p.taken + 1 }

section
variable {d : DriveNo} {p : Pass} {s : State}

theorem ResultDue.sector_val (h : ResultDue d p s) : (p.sector p.taken).val = p.first.val + p.taken := by
  have hw := h.within
  have hl := p.last.isLt
  simp only [Pass.length] at hw
  exact Nat.mod_eq_of_lt (by omega)

/-! The results of each direction (log 30). -/

theorem fits_good (h : p.dir = .read) (data : List Byte) : p.fits (.good data) = true := by
  simp only [Pass.fits, h]

theorem fits_uncorrectable (h : p.dir = .read) : p.fits .uncorrectable = true := by
  simp only [Pass.fits, h]

theorem fits_written (h : p.dir = .write) : p.fits .written = true := by
  simp only [Pass.fits, h]

/-- The result of the sector that is due, of the pass's kind, is taken for it (R108). -/
theorem ResultDue.taken (h : ResultDue d p s) {r : PassResult} (hr : p.fits r = true) :
    sectorResult d (p.sector p.taken) r s = takeNext d r s := by
  have hv := h.sector_val
  have hc : ¬((p.sector p.taken).val < p.first.val + p.closed ∨ p.fits r = false) := by
    have := h.unclosed
    simp only [hr, Bool.true_eq_false, or_false]
    omega
  simp only [sectorResult, h.pass, if_neg hc, h.kept, Bool.false_eq_true, false_and, if_false,
    if_neg h.begun.not_ge]

theorem takeNext_read {r : PassResult} (hp : passOf s d = some p) (hd : p.dir = .read) :
    takeNext d r s = afterResult d (takeRead d p (p.sector p.taken) (readData s d r) s) := by
  simp only [takeNext, hp, hd]

theorem takeNext_write {r : PassResult} (hp : passOf s d = some p) (hd : p.dir = .write) :
    takeNext d r s = afterResult d (takeWritten d p (p.sector p.taken) s) := by
  simp only [takeNext, hp, hd]

/-- A result for a sector already closed, or not of the pass's kind, is disregarded (log 9, log 30). -/
theorem sectorResult_disregarded {sec : SectorNo} {r : PassResult} (hp : passOf s d = some p)
    (h : sec.val < p.first.val + p.closed ∨ p.fits r = false) : sectorResult d sec r s = s := by
  simp only [sectorResult, hp, if_pos h]

/-! After the result (R108, R109). -/

theorem modPass_pass {f : Pass → Pass} (hp : passOf s d = some p) : modPass f s = passIs (f p) s := by
  obtain ⟨-, hg, -⟩ := passOf_eq_some_iff.mp hp
  simp only [modPass, hg, Option.map_some, passIs]

theorem afterResult_eq (hp : passOf s d = some p) (hk : p.dropped = false) :
    afterResult d s =
      if p.length ≤ p.taken + 1 then finishPass d (counted p) (passIs (counted p) s) else passIs (counted p) s := by
  simp only [afterResult, hp, modPass_pass hp]
  exact if_neg (Bool.eq_false_iff.mp hk)

theorem afterResult_inside (hp : passOf s d = some p) (hk : p.dropped = false) (hl : p.taken + 1 < p.length) :
    afterResult d s = passIs (counted p) s :=
  (afterResult_eq hp hk).trans (if_neg hl.not_ge)

theorem afterResult_last (hp : passOf s d = some p) (hk : p.dropped = false) (hl : p.taken + 1 = p.length) :
    afterResult d s = finishPass d (counted p) (passIs (counted p) s) :=
  (afterResult_eq hp hk).trans (if_pos hl.ge)

/-! What is taken from a result. -/

theorem readData_good {data : List Byte} (h : (s.fence d).causes.offTrack = false) :
    readData s d (.good data) = some data := by
  simp [readData, h]

theorem readData_uncorrectable : readData s d .uncorrectable = none := by
  simp [readData]

/-- A sector read is stored clean, with forced parity where it is due, and is needed no longer (R110, R136). -/
def sectorRead (d : DriveNo) (o : Orient) (b : BufNo) (x : SectorNo) (data : List Byte) (s : State) : State :=
  (s.setOrient d (some { o with needed := o.needed.filter fun y => y != x })).modBuffer b fun r =>
    { r with cells := putCell x ⟨data, false, r.parityForce⟩ r.cells, parityForce := false }

theorem ResultDue.holds (h : ResultDue d p s) (ha : (s.buffer p.buffer).assigned = some (d, p.home)) :
    p.holds s = true := by
  obtain ⟨-, -, hd⟩ := passOf_eq_some_iff.mp h.pass
  simp [Pass.holds, ha, hd]

theorem satisfied_eq {o : Orient} {x : SectorNo} (ho : s.orients.get d = some o) :
    satisfied d x s = s.setOrient d (some { o with needed := o.needed.filter fun y => y != x }) := by
  simp only [satisfied, ho, Option.map_some]

theorem takeRead_stores {o : Orient} {x : SectorNo} {data : List Byte} (ho : s.orients.get d = some o)
    (hx : x ∈ o.needed) (hh : p.holds s = true) (hd : (s.buffer p.buffer).holdsDirty x = false) :
    takeRead d p x (some data) s = sectorRead d o p.buffer x data s := by
  have hc : o.needed.contains x = true := by simpa using hx
  simp only [takeRead, ho, hc, hh, hd, and_self, if_true, reduceCtorEq, and_false, Bool.false_eq_true, if_false]
  exact satisfied_eq (s := storeCell p.buffer x data false s) ho

theorem takeRead_none {x : SectorNo} (hw : p.work ≠ .relocation .verify)
    (hd : (s.buffer p.buffer).holdsDirty x = false) : takeRead d p x none s = s := by
  simp [takeRead, hw, hd]

/-- VERIFY notes a sector that it cannot read (R159). -/
theorem takeRead_notes {x : SectorNo} (hw : p.work = .relocation .verify)
    (hd : (s.buffer p.buffer).holdsDirty x = false) :
    takeRead d p x none s = modPass (fun q => { q with noted := q.noted ++ [x] }) s := by
  simp [takeRead, hw, hd]

theorem takeWritten_relocation {ph : RelocPhase} {x : SectorNo} (hw : p.work = .relocation ph) :
    takeWritten d p x s = s := by
  simp only [takeWritten, hw]

/-- A sector of a home track off its entry's lost list (R151). -/
def notLost (h : HomeTrack) (x : SectorNo) (t : Tracks) : Tracks :=
  { t with entries := t.entries.map fun e =>
    if e.home = h then { e with lost := e.lost.filter fun y => y != x } else e }

/-- A sector that a destage has written is clean, and its track's lost list does not name it (R113, R151). -/
def sectorWritten (d : DriveNo) (h : HomeTrack) (b : BufNo) (x : SectorNo) (s : State) : State :=
  (s.modBuffer b fun r => { r with cells := cleanCell x r.cells }).modTracks d (notLost h x)

theorem state_running {r : Buffer} {a : DriveNo × HomeTrack} (ha : r.assigned = some a) (hr : r.destage = .running) :
    r.state = .destaging := by
  simp [Buffer.state, ha, hr]

/-- A DESTAGING buffer that has lost its last dirty sector is left to the end of its destage (R113, R131). -/
theorem cleanSector_running {b : BufNo} {x : SectorNo} {a : DriveNo × HomeTrack} (ha : (s.buffer b).assigned = some a)
    (hr : (s.buffer b).destage = .running) :
    cleanSector b x s = s.modBuffer b fun r => { r with cells := cleanCell x r.cells } := by
  simp only [cleanSector, state_running ha hr]
  rfl

theorem takeWritten_destage {x : SectorNo} (hw : p.work = .destage p.buffer) (hh : p.holds s = true)
    (hr : (s.buffer p.buffer).destage = .running) (hx : x ∉ p.withheld) (hy : x ∉ p.stored) :
    takeWritten d p x s = sectorWritten d p.home p.buffer x s := by
  have ha : (s.buffer p.buffer).assigned = some (p.drive, p.home) := by simpa [Pass.holds] using hh
  have hx' : p.withheld.contains x = false := by simpa using hx
  have hy' : ¬(p.stored.contains x = true ∨ p.holds s = false) := by simpa [hh] using hy
  simp only [takeWritten, hw, hx', Bool.false_eq_true, if_false, if_neg hy', cleanSector_running ha hr]
  rfl

/-! The result that is due, by direction and kind: what it is taken for, and the pass after it. -/

theorem ResultDue.good {o : Orient} {data : List Byte} (h : ResultDue d p s) (hd : p.dir = .read)
    (ha : (s.buffer p.buffer).assigned = some (d, p.home)) (ho : s.orients.get d = some o)
    (hx : p.sector p.taken ∈ o.needed) (hn : (s.buffer p.buffer).holdsDirty (p.sector p.taken) = false)
    (hf : (s.fence d).causes.offTrack = false) :
    sectorResult d (p.sector p.taken) (.good data) s =
      afterResult d (sectorRead d o p.buffer (p.sector p.taken) data s) := by
  rw [h.taken (fits_good hd data), takeNext_read h.pass hd, readData_good hf,
    takeRead_stores ho hx (h.holds ha) hn]

theorem ResultDue.uncorrectable (h : ResultDue d p s) (hd : p.dir = .read) (hw : p.work ≠ .relocation .verify)
    (hn : (s.buffer p.buffer).holdsDirty (p.sector p.taken) = false) :
    sectorResult d (p.sector p.taken) .uncorrectable s = afterResult d s := by
  rw [h.taken (fits_uncorrectable hd), takeNext_read h.pass hd, readData_uncorrectable, takeRead_none hw hn]

theorem ResultDue.verify_uncorrectable (h : ResultDue d p s) (hd : p.dir = .read)
    (hw : p.work = .relocation .verify) (hn : (s.buffer p.buffer).holdsDirty (p.sector p.taken) = false) :
    sectorResult d (p.sector p.taken) .uncorrectable s =
      afterResult d (passIs { p with noted := p.noted ++ [p.sector p.taken] } s) := by
  rw [h.taken (fits_uncorrectable hd), takeNext_read h.pass hd, readData_uncorrectable,
    takeRead_notes hw hn, modPass_pass h.pass]

theorem ResultDue.destage_written (h : ResultDue d p s) (hd : p.dir = .write) (hw : p.work = .destage p.buffer)
    (ha : (s.buffer p.buffer).assigned = some (d, p.home)) (hr : (s.buffer p.buffer).destage = .running)
    (hx : p.sector p.taken ∉ p.withheld) (hy : p.sector p.taken ∉ p.stored) :
    sectorResult d (p.sector p.taken) .written s =
      afterResult d (sectorWritten d p.home p.buffer (p.sector p.taken) s) := by
  rw [h.taken (fits_written hd), takeNext_write h.pass hd,
    takeWritten_destage hw (h.holds ha) hr hx hy]

theorem ResultDue.relocation_written {ph : RelocPhase} (h : ResultDue d p s) (hd : p.dir = .write)
    (hw : p.work = .relocation ph) : sectorResult d (p.sector p.taken) .written s = afterResult d s := by
  rw [h.taken (fits_written hd), takeNext_write h.pass hd, takeWritten_relocation hw]

end

/-- Settles O53: the result is taken for the sector that is due, by the direction of the pass, and the pass goes on. -/
theorem sectorResultTaken : Obligations.SectorResultTaken := by
  intro d p o s hs harm hg hpd ho hk hc hb hl ha x u
  have hp : passOf s d = some p := passOf_eq_some_iff.mpr ⟨harm, hg, hpd⟩
  have hdue : ResultDue d p s := ⟨hp, hk, hc, hb, by omega⟩
  refine ⟨fun c data hw hd hx hn hf => ?_, fun c hw hd hn => ?_, fun b hw hd hbuf hr hx hy => ?_, fun sec r h => ?_⟩
  · exact take_effect hs ((hdue.good hd ha ho hx hn hf).trans (afterResult_inside hp hk hl)) hs.2
  · exact take_effect hs ((hdue.uncorrectable hd (by simp [hw]) hn).trans (afterResult_inside hp hk hl)) hs.2
  · subst hbuf
    exact take_effect hs ((hdue.destage_written hd hw ha hr hx hy).trans (afterResult_inside hp hk hl)) hs.2
  · exact take_disregards hs (sectorResult_disregarded hp h)

end Sys2Proof.Machine.StringDataPath
end

section
namespace Sys2Proof.Machine.StringDataPath
open Sys2Proof.Machine.Laws Sys2Proof.Machine.DriveString Sys2Proof.Machine.ChainControl

/-! SUPPORT. The end of a pass (R109): what follows by the work it served; a retry of a read (R111), PASS_END, and a
destage's last pass (R128, R131). -/

/-- The grant has ended (R109). -/
def grantEnded (s : State) : State := { s with path := { s.path with grant := none } }

section
variable {d : DriveNo} {p : Pass} {s : State}

theorem clearGrant_passIs (h : p.drive = d) : clearGrant d (passIs p s) = grantEnded s := by
  simp [clearGrant, passIs, grantEnded, h]

/-! What the end of a pass hands on. -/

theorem finishPass_retries {c : CtxNo} {o : Orient} (hw : p.work = .step c) (hc : stopOf s c = .none)
    (hd : p.dir = .read) (ho : s.orients.get d = some o) (hl : stillNeeded s d ≠ [])
    (hr : o.retry < (s.policy d).retryLimit) :
    finishPass d p s = retryPass d o (stillNeeded s d) (clearGrant d s) := by
  obtain ⟨x, xs, hx⟩ := List.exists_cons_of_ne_nil hl
  simp only [finishPass, hw, hc, hd, ho, hx, hr, decide_true, if_true]

theorem finishPass_destage {b : BufNo} (hw : p.work = .destage b) :
    finishPass d p s = destageNext d b p.home (some p.last) (clearGrant d s) := by
  simp only [finishPass, hw]

theorem finishPass_readOld (hw : p.work = .relocation .readOld) (hl : stillNeeded s d = []) :
    finishPass d p s = readOldEnds d [] (clearGrant d s) := by
  simp only [finishPass, hw, hl]

theorem finishPass_writeNew (hw : p.work = .relocation .writeNew) :
    finishPass d p s = writeNewEnds d (clearGrant d s) := by
  simp only [finishPass, hw]

theorem finishPass_verified (hw : p.work = .relocation .verify) (hn : p.noted = []) :
    finishPass d p s = commit d (clearGrant d s) := by
  simp only [finishPass, hw, hn, List.isEmpty_nil, if_true]

theorem finishPass_spareFails (hw : p.work = .relocation .verify) (hn : p.noted ≠ []) :
    finishPass d p s = spareFails d (clearGrant d s) := by
  simp only [finishPass, hw, List.isEmpty_iff, hn, if_false]

/-! The retry of a read (R111). -/

/-- A sector of a buffer without dirty sectors is not dirty. -/
theorem holdsDirty_clean {r : Buffer} (h : r.dirty = []) (x : SectorNo) : r.holdsDirty x = false := by
  simp [Buffer.holdsDirty, h]

/-- Every needed sector is still needed where the buffer has no dirty sector (R111). -/
theorem stillNeeded_clean {o : Orient} (ho : s.orients.get d = some o) (hb : (s.buffer o.buffer).dirty = []) :
    stillNeeded s d = o.needed := by
  simp [stillNeeded, ho, holdsDirty_clean hb]

/-- The arm orients for the sectors still needed, the miss count kept (R107, R111). -/
theorem retryPass_eq {o : Orient} (ho : s.orients.get d = some o) :
    retryPass d o o.needed s = (s.setOrient d (some { o with
      first := (firstLast o.needed).1, last := (firstLast o.needed).2, retry := o.retry + 1 })).setArm d
        .orienting := by
  simp only [retryPass, orientTo, ho]

/-- A pass whose result is due is one of its drive's. -/
theorem ResultDue.drive (h : ResultDue d p s) : p.drive = d := by
  obtain ⟨-, -, hd⟩ := passOf_eq_some_iff.mp h.pass
  exact hd

/-- The last sector of a chain's read pass cannot be read, and retries are left (R111). -/
theorem ResultDue.retries {o : Orient} {c : CtxNo} {x : Context} (h : ResultDue d p s)
    (hlast : p.taken + 1 = p.length) (ho : s.orients.get d = some o) (hw : p.work = .step c) (hd : p.dir = .read)
    (hx : s.ctx c = some x) (hstop : x.stop = .none) (hb : o.buffer = p.buffer)
    (hn : p.sector p.taken ∈ o.needed) (hdirty : (s.buffer p.buffer).dirty = [])
    (hr : o.retry < (s.policy d).retryLimit) :
    sectorResult d (p.sector p.taken) .uncorrectable s =
      ((grantEnded s).setOrient d (some { o with
        first := (firstLast o.needed).1, last := (firstLast o.needed).2, retry := o.retry + 1 })).setArm d
          .orienting := by
  have hneed : stillNeeded (passIs (counted p) s) d = o.needed := stillNeeded_clean ho (hb ▸ hdirty)
  have hstop' : stopOf (passIs (counted p) s) c = .none := by
    have hx' : (passIs (counted p) s).ctx c = some x := hx
    simp only [stopOf, hx', hstop]
  calc sectorResult d (p.sector p.taken) .uncorrectable s
    _ = afterResult d s := h.uncorrectable hd (by simp [hw]) (holdsDirty_clean hdirty _)
    _ = finishPass d (counted p) (passIs (counted p) s) := afterResult_last h.pass h.kept hlast
    _ = retryPass d o o.needed (grantEnded s) := by
      rw [finishPass_retries (p := counted p) hw hstop' hd ho (by rw [hneed]; exact List.ne_nil_of_mem hn) hr, hneed,
        clearGrant_passIs (p := counted p) h.drive]
    _ = _ := retryPass_eq ho

/-! PASS_END (log 8). -/

/-- The result of the last sector ends the pass. -/
theorem ResultDue.lastResult_endsPass (h : ResultDue d p s) (hlast : p.taken + 1 = p.length) {r : PassResult}
    (hr : p.fits r = true) : endsPass s d (.result (p.sector p.taken) r) = true := by
  have hv := h.sector_val
  have ho := h.unclosed
  simp [endsPass, h.pass, hr, hlast, hv, ho]

/-- PASS_END with the result of the last sector is that result. -/
theorem ResultDue.passEnd (h : ResultDue d p s) (hs : calm s) (hlast : p.taken + 1 = p.length) {r : PassResult}
    (hr : p.fits r = true) {u : State} (hu : exec (.sectorResult d (p.sector p.taken) r) s = .next u) :
    exec (.sectorResult d (p.sector p.taken) r) s = .next u ∧
      exec (.passEnd d (.result (p.sector p.taken) r)) s = .next u := by
  refine ⟨hu, ?_⟩
  change execSectorResult d (p.sector p.taken) r s = _ at hu
  change execPassEnd d (.result (p.sector p.taken) r) s = _
  unfold execSectorResult at hu
  unfold execPassEnd
  rw [take_calm _ _ hs.1 hs.2] at hu ⊢
  rw [if_pos (h.lastResult_endsPass hlast hr)]
  exact hu

/-- PASS_END with an event that would not end the pass has no effect. -/
theorem passEnd_none {e : PassCloser} (hs : calm s) (h : endsPass s d e = false) :
    exec (.passEnd d e) s = .next s := by
  change execPassEnd d e s = _
  unfold execPassEnd
  exact take_effect hs (if_neg (by simp [h])) hs.2

end

/-! The end of a destage (R128, R131). -/

section
variable {d : DriveNo} {b : BufNo} {s : State}

/-- The one dirty sector made clean. -/
theorem dirty_cleanCell {r : Buffer} {x : SectorNo} (h : r.dirty = [x]) :
    Buffer.dirty { r with cells := cleanCell x r.cells } = [] := by
  have hx : ∀ q ∈ r.cells, q.2.dirty = true → q.1 = x := fun q hq hd => by
    have hm : q.1 ∈ r.dirty := List.mem_map.mpr ⟨q, List.mem_filter.mpr ⟨hq, hd⟩, rfl⟩
    simpa [h] using hm
  simp only [Buffer.dirty, cleanCell, List.map_eq_nil_iff, List.filter_map, List.filter_eq_nil_iff,
    Function.comp_apply]
  intro q hq
  split
  · simp
  · next hne => exact fun hd => hne (hx q hq hd)

theorem not_relocPin_of_unpinned (h : pinned s b = false) : (s.buffer b).relocPin = false := by
  simp only [pinned, Bool.or_eq_false_iff] at h
  exact h.2

/-- No chain names a buffer that is not pinned (R118). -/
theorem no_ctx_of_unpinned (h : pinned s b = false) {c : CtxNo} {x : Context} (hx : s.ctx c = some x) :
    x.buffer ≠ some b := fun hb => by
  rw [pinned_of_ctx hx hb] at h
  contradiction

theorem resumeStaging_none (h : ∀ c x, s.ctx c = some x → x.buffer = some b → x.state ≠ .waitStore .bufferFree) :
    resumeStaging b s = s := by
  have hn : (ctxsWhere s fun x => x.buffer == some b && x.state == .waitStore .bufferFree) = [] :=
    ctxsWhere_none fun c x hx => by simpa using h c x hx
  simp [resumeStaging, hn]

theorem flushTest_none (h : noFlush d s) : flushTest d s = s := by
  have hn : (ctxsWhere s fun x => x.drive == d && x.state == .waitStore .flush) = [] :=
    ctxsWhere_none fun c x hx => by simpa using h c x hx
  simp [flushTest, hn]

/-- A CLEAN buffer without pins under Retain OFF is emptied (R128). -/
theorem retainRule_empties {h : HomeTrack} (ha : (s.buffer b).assigned = some (d, h)) (hc : (s.buffer b).state = .clean)
    (hp : pinned s b = false) (hr : (s.policy d).retain = false) (hf : noFlush d s) :
    retainRule b s = emptyBuffer b s := by
  have hf' : noFlush d (emptyBuffer b s) := hf
  simp only [retainRule, ha, hc, hp, hr, and_self, if_true, emptyOf, flushTest_none hf']

theorem retainRule_keeps {h : HomeTrack} (ha : (s.buffer b).assigned = some (d, h)) (hr : (s.policy d).retain = true) :
    retainRule b s = s := by
  simp [retainRule, ha, hr]

/-- After a destage of a buffer that is not pinned, with no flush wait and no waiting requester, only the Retain rule
has something to do (R131). -/
theorem destageEnded_quiet {v : State} (hv : retainRule b s = v) (hp : pinned v b = false) (hf : noFlush d v)
    (hb : v.bufWait = []) : destageEnded d b s = v := by
  simp only [destageEnded, hv, not_relocPin_of_unpinned hp, Bool.false_eq_true, if_false,
    resumeStaging_none fun c x hx h => absurd h (no_ctx_of_unpinned hp hx), flushTest_none hf, serve_none hb, ite_self]

/-- Whether a buffer is pinned is a matter of the contexts and of its relocation pin (R118). -/
theorem pinned_congr {t : State} (hc : t.contexts = s.contexts)
    (hb : (t.buffer b).relocPin = (s.buffer b).relocPin) : pinned t b = pinned s b := by
  have hx : ∀ c, t.ctx c = s.ctx c := fun c => by simp only [State.ctx, hc]
  have hp : pins t b = pins s b := by simp only [pins, hx]
  rw [pinned, pinned, hp, hb]

/-- Without a later run a destage has had its last pass (R109). -/
theorem destageNext_ends {h : HomeTrack} {x : SectorNo} (hr : ∀ r ∈ (s.buffer b).runs, r.1 ≤ x) :
    destageNext d b h (some x) s = endDestage d b s := by
  have hn : nextRun (s.buffer b) (some x) = none := List.find?_eq_none.mpr (by simpa using hr)
  simp only [destageNext, hn]

theorem armIdle_transferring (ha : (s.drive d).arm = .transferring) : armIdle d s = enterIdle d s := by
  simp only [armIdle, ha]

/-- The arm and the buffer as a destage leaves them, before what follows (R131). -/
def destageDone (d : DriveNo) (b : BufNo) (s : State) : State :=
  unselected d ((s.modBuffer b fun r => { r with destage := .none, runs := [] }).setArm d .idle)

/-- Pieces of work that go ahead of those that an operation hands on (log 14). -/
theorem ahead_later {ts us : List Task} {f : State → State} {u : State} (hs : s.work = []) (hf : f s = u.later us)
    (hu : u.work = []) : State.ahead ts f s = u.later (ts ++ us) := by
  have hs' : ({ s with work := [] } : State) = s := by
    rw [← hs]
  simp only [State.ahead, hs', hf, State.later, hs, hu, List.nil_append]

/-- A destage ends on a drive without work: what follows it, then the arm's next selection (R131; log 14). -/
theorem endDestage_noWork (hw : s.work = []) (ha : (s.drive d).arm = .transferring) (hc : (s.drive d).cyl ≠ none)
    (hn : noWork d s) : endDestage d b s = (destageDone d b s).later [.destageEnded d b, .select d] := by
  obtain ⟨cyl, hcyl⟩ := Option.ne_none_iff_exists'.mp hc
  let t := s.modBuffer b fun r => { r with destage := .none, runs := [] }
  have hi : armIdle d t = (destageDone d b s).later [.select d] :=
    (armIdle_transferring (s := t) ha).trans (enterIdle_noWork (s := t) hcyl hn)
  have hu : (destageDone d b s).work = [] := by simpa [destageDone, unselected] using hw
  unfold endDestage
  exact ahead_later (s := t) hw hi hu

/-! A destage's last sector is written (R131). -/

@[simp] theorem buffer_modBuffer (b c : BufNo) (f : Buffer → Buffer) (s : State) :
    (s.modBuffer b f).buffer c = if b = c then f (s.buffer b) else s.buffer c := get_change s.buffers b c f

theorem modBuffer_modBuffer (b : BufNo) (f g : Buffer → Buffer) (s : State) :
    (s.modBuffer b f).modBuffer b g = s.modBuffer b fun r => g (f r) := by
  simp only [State.modBuffer, change_change]

/-- A drive's grant, its selection and a booking for it are gone. -/
theorem armCleared_pass {p : Pass} (hp : passOf s d = some p) : armCleared d s = unselected d (grantEnded s) := by
  obtain ⟨-, hg, hd⟩ := passOf_eq_some_iff.mp hp
  simp [armCleared, unselected, grantEnded, hg, hd, State.setOrient, State.modSched]

/-- The arm IDLE and the track's lost list as a destage leaves them, its buffer as it was. -/
def lastWritten (d : DriveNo) (h : HomeTrack) (x : SectorNo) (s : State) : State :=
  ((armCleared d s).setArm d .idle).modTracks d (notLost h x)

/-- A buffer whose last sector has been written. -/
def destaged (x : SectorNo) (r : Buffer) : Buffer :=
  { r with cells := cleanCell x r.cells, destage := .none, runs := [] }

theorem destageDone_written {p : Pass} {h : HomeTrack} {x : SectorNo} (hp : passOf s d = some p) :
    destageDone d b (grantEnded (sectorWritten d h b x s)) = (lastWritten d h x s).modBuffer b (destaged x) := by
  rw [lastWritten, armCleared_pass hp]
  simp only [destageDone, sectorWritten, unselected, grantEnded, State.modBuffer, State.modTracks, State.setArm,
    State.modDrive, State.modSched, State.setOrient, change_change]
  rfl

theorem buffer_sectorWritten (h : HomeTrack) (x : SectorNo) :
    (sectorWritten d h b x s).buffer b = { s.buffer b with cells := cleanCell x (s.buffer b).cells } :=
  (buffer_modBuffer b b _ s).trans (if_pos rfl)

theorem track_sectorWritten (h : HomeTrack) (x : SectorNo) :
    (sectorWritten d h b x s).track d = notLost h x (s.track d) :=
  (get_change s.tracks d d _).trans (if_pos rfl)

theorem noWork_sectorWritten {h : HomeTrack} {x : SectorNo} (hn : noWork d s) :
    noWork d (sectorWritten d h b x s) := by
  obtain ⟨hq, hr, hp⟩ := hn
  exact ⟨hq, by rw [track_sectorWritten]; exact hr, hp⟩

/-- The last sector of a destage's last pass is written, on a drive without work (R109, R131). -/
theorem ResultDue.destage_ends {p : Pass} (h : ResultDue d p s) (hs : s.work = []) (hlast : p.taken + 1 = p.length)
    (hd : p.dir = .write) (hw : p.work = .destage p.buffer) (ha : (s.buffer p.buffer).assigned = some (d, p.home))
    (hr : (s.buffer p.buffer).destage = .running) (hx : p.sector p.taken ∉ p.withheld)
    (hy : p.sector p.taken ∉ p.stored) (hruns : ∀ r ∈ (s.buffer p.buffer).runs, r.1 ≤ p.last)
    (hc : (s.drive d).cyl ≠ none) (hn : noWork d s) :
    sectorResult d (p.sector p.taken) .written s =
      ((lastWritten d p.home (p.sector p.taken) s).modBuffer p.buffer (destaged (p.sector p.taken))).later
        [.destageEnded d p.buffer, .select d] := by
  obtain ⟨harm, -, -⟩ := passOf_eq_some_iff.mp h.pass
  let x := p.sector p.taken
  let t := grantEnded (sectorWritten d p.home p.buffer x s)
  have hruns' : ∀ r ∈ (t.buffer p.buffer).runs, r.1 ≤ p.last := by
    have hb : t.buffer p.buffer = _ := buffer_sectorWritten (d := d) p.home x
    rwa [hb]
  have hn' : noWork d t := noWork_sectorWritten (b := p.buffer) (h := p.home) (x := x) hn
  calc sectorResult d x .written s
    _ = afterResult d (sectorWritten d p.home p.buffer x s) := h.destage_written hd hw ha hr hx hy
    _ = finishPass d (counted p) (passIs (counted p) (sectorWritten d p.home p.buffer x s)) :=
      afterResult_last h.pass h.kept hlast
    _ = destageNext d p.buffer p.home (some p.last) t := by
      rw [finishPass_destage (p := counted p) hw, clearGrant_passIs (p := counted p) h.drive]
      rfl
    _ = endDestage d p.buffer t := destageNext_ends hruns'
    _ = (destageDone d p.buffer t).later [.destageEnded d p.buffer, .select d] := endDestage_noWork hs harm hc hn'
    _ = _ := by rw [destageDone_written h.pass]

@[simp] theorem lastWritten_keeps (h : HomeTrack) (x : SectorNo) :
    (lastWritten d h x s).contexts = s.contexts ∧ (lastWritten d h x s).buffers = s.buffers ∧
    (lastWritten d h x s).bufWait = s.bufWait ∧ (lastWritten d h x s).work = s.work := by
  simp [lastWritten, armCleared]

theorem buffer_lastWritten (c : BufNo) (h : HomeTrack) (x : SectorNo) :
    (lastWritten d h x s).buffer c = s.buffer c := by
  simp [State.buffer]

theorem policy_lastWritten (h : HomeTrack) (x : SectorNo) : (lastWritten d h x s).policy d = s.policy d := by
  simp [lastWritten, armCleared, State.policy, State.setArm, State.drive]

theorem noWork_lastWritten {h : HomeTrack} {x : SectorNo} (hn : noWork d s) : noWork d (lastWritten d h x s) := by
  obtain ⟨hq, hr, hp⟩ := hn
  refine ⟨?_, ?_, ?_⟩
  · simpa [lastWritten, armCleared, State.sched] using hq
  · simpa [lastWritten, notLost, armCleared, State.track] using hr
  · simpa [lastWritten, armCleared, State.setArm, State.drive] using hp

theorem noFlush_lastWritten {h : HomeTrack} {x : SectorNo} (hf : noFlush d s) : noFlush d (lastWritten d h x s) := by
  simpa [noFlush, State.ctx] using hf

/-- The pins of a destage's buffer, where its relocation pin stays (R118). -/
theorem pinned_lastWritten {h : HomeTrack} {x : SectorNo} {g : Buffer → Buffer}
    (hg : (g (s.buffer b)).relocPin = (s.buffer b).relocPin) :
    pinned ((lastWritten d h x s).modBuffer b g) b = pinned s b := by
  have hc : ((lastWritten d h x s).modBuffer b g).contexts = s.contexts := by simp
  have hb : (((lastWritten d h x s).modBuffer b g).buffer b).relocPin = (s.buffer b).relocPin := by
    rw [buffer_modBuffer, if_pos rfl, buffer_lastWritten, hg]
  exact pinned_congr hc hb

theorem noWork_modBuffer {f : Buffer → Buffer} (h : noWork d s) : noWork d (s.modBuffer b f) := h

theorem policy_modBuffer (f : Buffer → Buffer) : (s.modBuffer b f).policy d = s.policy d := rfl

theorem noFlush_modBuffer {f : Buffer → Buffer} (h : noFlush d s) : noFlush d (s.modBuffer b f) := h

/-- A destage ends, and the Retain rule is all that follows (R131). -/
theorem take_destageEnded {f : State → State} {t u : State} (hs : calm s)
    (hf : f s = t.later [.destageEnded d b, .select d]) (ht : t.work = []) (hu : retainRule b t = u) (hw : u.work = [])
    (hp : pinned u b = false) (hfl : noFlush d u) (hb : u.bufWait = []) (hn : noWork d u) : take s f = .next u := by
  have hended : runTask (.destageEnded d b) t = u := by
    rw [runTask, destageEnded_quiet hu hp hfl hb]
  have hselect : runTask (.select d) u = u := select_noWork hn
  exact take_pair hs hf ht hended hw hselect hw

/-- A destage's last sector is written, and what the Retain rule leaves of its buffer is all that follows (R131). -/
theorem take_destaged {h : HomeTrack} {x : SectorNo} {f : State → State} {g : Buffer → Buffer} (hs : calm s)
    (hf : f s = ((lastWritten d h x s).modBuffer b (destaged x)).later [.destageEnded d b, .select d])
    (hn : noWork d s) (hb : s.bufWait = []) (hfl : noFlush d s) (hp : pinned s b = false)
    (hg : (g (s.buffer b)).relocPin = false)
    (hv : retainRule b ((lastWritten d h x s).modBuffer b (destaged x)) = (lastWritten d h x s).modBuffer b g) :
    take s f = .next ((lastWritten d h x s).modBuffer b g) := by
  have hw : ∀ k, ((lastWritten d h x s).modBuffer b k).work = [] := fun k => by simpa using hs.2
  have hnw : noWork d ((lastWritten d h x s).modBuffer b g) := noWork_modBuffer (noWork_lastWritten hn)
  have hnf : noFlush d ((lastWritten d h x s).modBuffer b g) := noFlush_modBuffer (noFlush_lastWritten hfl)
  have hr := not_relocPin_of_unpinned hp
  have hp' : pinned ((lastWritten d h x s).modBuffer b g) b = false :=
    (pinned_lastWritten (hg.trans hr.symm)).trans hp
  have hb' : ((lastWritten d h x s).modBuffer b g).bufWait = [] := by simpa using hb
  exact take_destageEnded hs hf (hw _) hv (hw g) hp' hnf hb' hnw

/-- A buffer that the Retain rule empties (R128). -/
def emptied (r : Buffer) : Buffer := ⟨none, [], false, .none, [], none, r.parityForce⟩

theorem state_destaged {x : SectorNo} {r : Buffer} {a : DriveNo × HomeTrack} (ha : r.assigned = some a)
    (hd : r.dirty = [x]) : (destaged x r).state = .clean := by
  have hc : (destaged x r).dirty = [] := dirty_cleanCell hd
  have ha' : (destaged x r).assigned = some a := ha
  have hr : (destaged x r).destage = .none := rfl
  simp [Buffer.state, ha', hr, hc]

theorem take_destaged_empties {h : HomeTrack} {x : SectorNo} {f : State → State} (hs : calm s)
    (hf : f s = ((lastWritten d h x s).modBuffer b (destaged x)).later [.destageEnded d b, .select d])
    (hn : noWork d s) (hb : s.bufWait = []) (hfl : noFlush d s) (hp : pinned s b = false)
    (ha : (s.buffer b).assigned = some (d, h)) (hd : (s.buffer b).dirty = [x]) (hr : (s.policy d).retain = false) :
    take s f = .next ((lastWritten d h x s).modBuffer b emptied) := by
  have hbuf : ((lastWritten d h x s).modBuffer b (destaged x)).buffer b = destaged x (s.buffer b) := by
    rw [buffer_modBuffer, if_pos rfl, buffer_lastWritten]
  have he : emptyBuffer b ((lastWritten d h x s).modBuffer b (destaged x)) =
      (lastWritten d h x s).modBuffer b emptied := modBuffer_modBuffer ..
  have hv : retainRule b ((lastWritten d h x s).modBuffer b (destaged x)) =
      emptyBuffer b ((lastWritten d h x s).modBuffer b (destaged x)) := by
    refine retainRule_empties (d := d) (h := h) ?_ ?_ ((pinned_lastWritten rfl).trans hp) ?_ ?_
    · rw [hbuf]
      exact ha
    · rw [hbuf]
      exact state_destaged ha hd
    · rwa [policy_modBuffer, policy_lastWritten]
    · exact noFlush_modBuffer (noFlush_lastWritten hfl)
  exact take_destaged hs hf hn hb hfl hp rfl (hv.trans he)

theorem take_destaged_retains {h : HomeTrack} {x : SectorNo} {f : State → State} (hs : calm s)
    (hf : f s = ((lastWritten d h x s).modBuffer b (destaged x)).later [.destageEnded d b, .select d])
    (hn : noWork d s) (hb : s.bufWait = []) (hfl : noFlush d s) (hp : pinned s b = false)
    (ha : (s.buffer b).assigned = some (d, h)) (hr : (s.policy d).retain = true) :
    take s f = .next ((lastWritten d h x s).modBuffer b (destaged x)) := by
  refine take_destaged hs hf hn hb hfl hp (not_relocPin_of_unpinned hp) (retainRule_keeps (h := h) (d := d) ?_ ?_)
  · rw [buffer_modBuffer, if_pos rfl, buffer_lastWritten]
    exact ha
  · rwa [policy_modBuffer, policy_lastWritten]

end
end Sys2Proof.Machine.StringDataPath
end

section
namespace Sys2Proof.Machine.StringDataPath
open Sys2Proof.Machine.Laws Sys2Proof.Machine.DriveString Sys2Proof.Machine.ChainControl
open Sys2Proof.Machine.ArmScheduling Sys2Proof.Machine.PresentationControl

/-! SUPPORT. The passes of a relocation (R157 to R161): what each hands on when it ends. -/

section
variable {d : DriveNo} {s : State}

@[simp] theorem track_modTracks (d e : DriveNo) (f : Tracks → Tracks) (s : State) :
    (s.modTracks d f).track e = if d = e then f (s.track d) else s.track e := get_change s.tracks d e f

theorem modTracks_modTracks (d : DriveNo) (f g : Tracks → Tracks) (s : State) :
    (s.modTracks d f).modTracks d g = s.modTracks d fun t => g (f t) := by
  simp only [State.modTracks, change_change]

/-- A change of a drive's tracks is what it does to them as they stand. -/
theorem modTracks_congr {f g : Tracks → Tracks} (h : f (s.track d) = g (s.track d)) :
    s.modTracks d f = s.modTracks d g := by
  have h' : f (s.tracks.get d) = g (s.tracks.get d) := h
  simp only [State.modTracks, change, h']

/-- The Relocation Record that is there is changed. -/
theorem modReloc_some {r : Relocation} {f : Relocation → Relocation} (hr : (s.track d).reloc = some r) :
    modReloc d f s = s.modTracks d fun t => { t with reloc := some (f r) } :=
  modTracks_congr (by rw [hr]; rfl)

/-! A spare is taken (R158), and a spare fails (R160). -/

/-- The lowest-numbered FREE spare is allocated for WRITE_NEW (R158). -/
theorem takeSpare_some {r : Relocation} {j : SpareNo} (hr : (s.track d).reloc = some r)
    (hj : freeSpare (s.track d) = some j) :
    takeSpare d s = (s.modTracks d fun t =>
      { t with pool := put t.pool j .allocated, reloc := some { r with newSpare := some j, phase := .writeNew } }).later
        [.armIdle d] := by
  have hr' : ((setSpare d j .allocated s).track d).reloc = some r := by simpa [setSpare] using hr
  simp only [takeSpare, hr, hj]
  rw [modReloc_some hr', setSpare, modTracks_modTracks]

/-- READ_OLD ends with nothing left to read (R157, R158). -/
theorem readOldEnds_some {r : Relocation} {j : SpareNo} (hr : (s.track d).reloc = some r)
    (hj : freeSpare (s.track d) = some j) :
    readOldEnds d [] s = (s.modTracks d fun t =>
      { t with pool := put t.pool j .allocated
               reloc := some { r with newSpare := some j, phase := .writeNew, pending := rising r.pending } }).later
        [.armIdle d] := by
  have hr' : ((s.modTracks d fun t => { t with reloc := some { r with pending := rising (r.pending ++ []) } }).track
      d).reloc = some { r with pending := rising r.pending } := by simp
  have hj' : freeSpare ((s.modTracks d fun t =>
      { t with reloc := some { r with pending := rising (r.pending ++ []) } }).track d) = some j := by
    simpa [freeSpare] using hj
  rw [readOldEnds, modReloc_some hr, takeSpare_some hr' hj', modTracks_modTracks]

/-- The spare is retired, and the next FREE one allocated for WRITE_NEW (R160). -/
theorem spareFails_some {r : Relocation} {i j : SpareNo} (hr : (s.track d).reloc = some r) (hi : r.newSpare = some i)
    (hj : freeSpare { s.track d with pool := put (s.track d).pool i .retired } = some j) :
    spareFails d s = (s.modTracks d fun t =>
      { t with pool := put (put t.pool i .retired) j .allocated
               reloc := some { r with newSpare := some j, phase := .writeNew } }).later [.armIdle d] := by
  have hr' : ((setSpare d i .retired s).track d).reloc = some r := by simpa [setSpare] using hr
  have hm : modReloc d (fun k => { k with newSpare := none }) (setSpare d i .retired s) = s.modTracks d fun t =>
      { t with pool := put t.pool i .retired, reloc := some { r with newSpare := none } } := by
    rw [modReloc_some hr', setSpare, modTracks_modTracks]
  have hj' : freeSpare ((s.modTracks d fun t =>
      { t with pool := put t.pool i .retired, reloc := some { r with newSpare := none } }).track d) = some j := by
    simpa [freeSpare] using hj
  have hr'' : ((s.modTracks d fun t =>
      { t with pool := put t.pool i .retired, reloc := some { r with newSpare := none } }).track d).reloc =
        some { r with newSpare := none } := by simp
  simp only [spareFails, hr, hi, hm]
  rw [takeSpare_some hr'' hj', modTracks_modTracks]

/-! COMMIT (R161). -/

/-- The sectors stored clean into a buffer without dirty sectors leave it so (R110). -/
theorem dirty_putCell {cs : List (SectorNo × Cell)} {x : SectorNo} {c : Cell} (h : ∀ q ∈ cs, q.2.dirty = false)
    (hc : c.dirty = false) : ∀ q ∈ putCell x c cs, q.2.dirty = false := fun q hq => by
  rcases putCell_mem x c cs q hq with rfl | hq
  · exact hc
  · exact h q hq

theorem dirty_eq_nil_iff {r : Buffer} : r.dirty = [] ↔ ∀ q ∈ r.cells, q.2.dirty = false := by
  simp [Buffer.dirty]

/-- A buffer without dirty sectors is not DIRTY (R119). -/
theorem state_ne_dirty {r : Buffer} (h : r.dirty = []) : r.state ≠ .dirty := by
  unfold Buffer.state
  split
  · simp
  · simp only [h, List.isEmpty_nil, if_true]
    split <;> simp

/-- The pin of a relocation goes from a buffer that a chain pins too and that no chain waits for (R121, R161). -/
theorem clearRelocPin_shared {b : BufNo} {k : CtxNo} {y : Context} (hy : s.ctx k = some y) (hb : y.buffer = some b)
    (hw : ∀ c x, s.ctx c = some x → x.buffer = some b → x.state ≠ .waitStore .bufferFree) :
    clearRelocPin b s = touch b (s.modBuffer b fun r => { r with relocPin := false }) := by
  have hp : pinned (touch b (s.modBuffer b fun r => { r with relocPin := false })) b = true :=
    pinned_of_ctx (s := touch b (s.modBuffer b fun r => { r with relocPin := false })) hy hb
  have ha : afterUnpin b (touch b (s.modBuffer b fun r => { r with relocPin := false })) =
      touch b (s.modBuffer b fun r => { r with relocPin := false }) := if_pos hp
  rw [clearRelocPin, ha]
  exact resumeStaging_none hw

/-- A drive's tracks and a buffer made clean, and then its pin gone, are one change of each. -/
theorem clearRelocPin_cleaned {b : BufNo} {k : CtxNo} {y : Context} {f g : Tracks → Tracks} (hy : s.ctx k = some y)
    (hb : y.buffer = some b)
    (hw : ∀ c x, s.ctx c = some x → x.buffer = some b → x.state ≠ .waitStore .bufferFree) :
    clearRelocPin b (((s.modTracks d f).modBuffer b fun q => { q with cells := cleanCells q.cells }).modTracks d g) =
      touch b ((s.modTracks d fun t => g (f t)).modBuffer b fun q =>
        { q with cells := cleanCells q.cells, relocPin := false }) := by
  let t := ((s.modTracks d f).modBuffer b fun q => { q with cells := cleanCells q.cells }).modTracks d g
  have ht : (t.modBuffer b fun q => { q with relocPin := false }) =
      (s.modTracks d fun t => g (f t)).modBuffer b fun q =>
        { q with cells := cleanCells q.cells, relocPin := false } := by
    simp only [t, State.modBuffer, State.modTracks, change_change]
  rw [← ht]
  exact clearRelocPin_shared (s := t) hy hb hw

/-- The tracks of a drive after COMMIT: map entry, pool and record (R161). -/
def committed (r : Relocation) (i : SpareNo) (t : Tracks) : Tracks :=
  { t with
    entries := putEntry ⟨r.home, i, rising r.pending⟩ t.entries
    reloc := none
    pool :=
      match r.old.spare with
      | some j => put (put t.pool i .inUse) j .retired
      | none => put t.pool i .inUse }

/-- COMMIT with a CLEAN buffer that a chain pins too and that no chain waits for (R161). -/
theorem commit_shared {r : Relocation} {i : SpareNo} {b : BufNo} {k : CtxNo} {y : Context}
    (hr : (s.track d).reloc = some r) (hi : r.newSpare = some i) (hb : r.buffer = some b)
    (hc : (s.buffer b).dirty = []) (hy : s.ctx k = some y) (hyb : y.buffer = some b)
    (hw : ∀ c x, s.ctx c = some x → x.buffer = some b → x.state ≠ .waitStore .bufferFree) :
    commit d s = State.later [.relocOutcome d r.home .relocated, .recordFree d, .armIdle d]
      { (s.modTracks d (committed r i)).modBuffer b fun q =>
          { q with cells := cleanCells q.cells, relocPin := false } with
        lru := (s.lru.filter fun n => n != b) ++ [b] } := by
  have hd := state_ne_dirty hc
  unfold committed
  cases ho : r.old.spare with
  | none =>
    simp only [commit, hr, hi, hb, ho, if_neg hd, removeRecord, setSpare, modTracks_modTracks]
    rw [clearRelocPin_cleaned hy hyb hw]
    rfl
  | some j =>
    simp only [commit, hr, hi, hb, ho, if_neg hd, removeRecord, setSpare, modTracks_modTracks]
    rw [clearRelocPin_cleaned hy hyb hw]
    rfl

/-! The arm goes from WRITE_NEW to VERIFY (R158, R159). -/

/-- A cylinder does not lie behind itself (R91). -/
theorem behind_self (w : Sweep) (cur : Fin 604) : behind w cur cur = false := by
  cases w <;> simp [behind, ahead, Sweep.flip]

/-- A drive without a Pending Policy whose arm enters IDLE has a selection put off (R87). -/
theorem enterIdle_noPolicy {cyl : Fin 604} (hc : (s.drive d).cyl = some cyl) (hp : (s.drive d).pending = none) :
    enterIdle d s = (unselected d (s.setArm d .idle)).later [.select d] := by
  have hp' : ((unselected d (s.setArm d .idle)).drive d).pending = none := by
    simpa [unselected, State.setArm, State.drive] using hp
  simp only [enterIdle, hc, dropSelection_eq]
  change (applyPolicy joinTogether d (unselected d (s.setArm d .idle))).later _ = _
  rw [applyPolicy, hp']

/-- The candidate of a relocation in VERIFY (R95). -/
theorem relocItem_verify {r : Relocation} {b : BufNo} (hr : (s.track d).reloc = some r) (hp : r.phase = .verify)
    (hb : r.buffer = some b) : relocItem s d = some ⟨.relocation .verify, r.home, 0, 0⟩ := by
  simp only [relocItem, hr, hp, hb]

/-- Nothing leaves an empty Request Queue. -/
theorem leaveQueue_empty (w : Work) (h : (s.sched d).queue = []) : leaveQueue d w s = s := by
  have hq : change s.scheds d (fun q => { q with queue := q.queue.filter fun i => i.work != w }) = s.scheds := by
    refine change_id _ _ _ ?_
    have h' : (s.scheds.get d).queue = [] := h
    rw [h', List.filter_nil, ← h']
  simp only [leaveQueue, State.modSched, hq]

/-- An arm that stands on the cylinder of its selection has arrived (R10). -/
theorem startSeek_here {k : Selection} (hk : (s.sched d).selection = some k)
    (hc : (s.drive d).cyl = some k.phys.cyl) : startSeek d s = arrived d (s.setArm d .seeking) := by
  simp only [startSeek, hk, if_pos hc]

theorem arrived_relocation {k : Selection} {ph : RelocPhase} (hk : (s.sched d).selection = some k)
    (hd : k.detached = false) (hw : k.work = .relocation ph) : arrived d s = relocArrives d ph s := by
  simp only [arrived, hk, hd, hw, Bool.false_eq_true, if_false]

/-- The arm on cylinder for VERIFY orients for the whole track (R159). -/
theorem relocArrives_verify {r : Relocation} {b : BufNo} (hr : (s.track d).reloc = some r) (hb : r.buffer = some b)
    (ho : s.orients.get d = none) :
    relocArrives d .verify s =
      (s.setOrient d (some ⟨.relocation .verify, .read, b, r.home, 0, 15, allSectors, 0, 0⟩)).setArm d
        .orienting := by
  simp only [relocArrives, hr, hb, orientTo, ho]

theorem beginAgain_verify {r : Relocation} (hr : (s.track d).reloc = some r) (hp : r.phase = .verify) :
    beginAgain d s = s := by
  simp only [beginAgain, hr, hp]

/-- The arm, IDLE on the new spare's cylinder, orients for VERIFY (R89, R159). -/
theorem select_verify {r : Relocation} {b : BufNo} {i : SpareNo} (ha : (s.drive d).arm = .idle)
    (hc : (s.drive d).cyl = some (sparePhys i).cyl) (hq : (s.sched d).queue = [])
    (ho : s.orients.get d = none) (hr : (s.track d).reloc = some r) (hp : r.phase = .verify) (hb : r.buffer = some b)
    (hi : r.newSpare = some i) :
    select d s = (((s.modSched d fun q =>
      { q with selection := some ⟨.relocation .verify, sparePhys i, false, 0, false, r.home, 0, 0⟩ }).setArm d
        .seeking).setOrient d (some ⟨.relocation .verify, .read, b, r.home, 0, 15, allSectors, 0, 0⟩)).setArm d
          .orienting := by
  have hn : nextItem s d (sparePhys i).cyl = some ⟨.relocation .verify, r.home, 0, 0⟩ :=
    nextItem_relocation (relocItem_verify hr hp hb)
  have hphys : physOf s d ⟨.relocation .verify, r.home, 0, 0⟩ = sparePhys i := by
    simp only [physOf, hr, relocPhys, hp, hi]
  let k : Selection := ⟨.relocation .verify, sparePhys i, false, 0, false, r.home, 0, 0⟩
  let t := s.modSched d fun q => { q with selection := some k }
  have hk : (t.sched d).selection = some k := by simp [t, State.sched]
  have hseek : startSeek d t = relocArrives d .verify (t.setArm d .seeking) :=
    (startSeek_here hk hc).trans (arrived_relocation (k := k) hk rfl rfl)
  simp only [select, ha, if_true, hc, hn, selectItem, hphys, behind_self, givePasses, leaveQueue_empty _ hq, engage,
    Bool.false_and, Bool.false_eq_true, if_false]
  rw [beginAgain_verify (s := t) hr hp]
  exact hseek.trans (relocArrives_verify (s := t.setArm d .seeking) hr hb ho)

/-- WRITE_NEW has written the spare's last sector, and the arm stands on its cylinder: VERIFY follows (R158, R159). -/
theorem take_writeNewEnds {f : State → State} {r : Relocation} {b : BufNo} {i : SpareNo} (hs : calm s)
    (hf : f s = writeNewEnds d (grantEnded s)) (ha : (s.drive d).arm = .transferring)
    (hc : (s.drive d).cyl = some (sparePhys i).cyl) (hq : (s.sched d).queue = [])
    (hp : (s.drive d).pending = none) (hr : (s.track d).reloc = some r) (hb : r.buffer = some b)
    (hi : r.newSpare = some i) :
    take s f = .next (((((unselected d (grantEnded s)).setArm d .orienting).modTracks d fun t =>
      { t with reloc := some { r with phase := .verify } }).modSched d fun q =>
        { q with selection := some ⟨.relocation .verify, sparePhys i, false, 0, false, r.home, 0, 0⟩ }).setOrient d
          (some ⟨.relocation .verify, .read, b, r.home, 0, 15, allSectors, 0, 0⟩)) := by
  let t := (grantEnded s).modTracks d fun t => { t with reloc := some { r with phase := .verify } }
  have hf' : f s = t.later [.armIdle d] := by
    rw [hf, writeNewEnds, modReloc_some (s := grantEnded s) hr]
  let u := unselected d (t.setArm d .idle)
  have hidle : runTask (.armIdle d) t = u.later [.select d] :=
    (armIdle_transferring (s := t) ha).trans (enterIdle_noPolicy (s := t) hc hp)
  have hselect : runTask (.select d) u = (((u.modSched d fun q =>
      { q with selection := some ⟨.relocation .verify, sparePhys i, false, 0, false, r.home, 0, 0⟩ }).setArm d
        .seeking).setOrient d (some ⟨.relocation .verify, .read, b, r.home, 0, 15, allSectors, 0, 0⟩)).setArm d
          .orienting := by
    refine select_verify (s := u) (r := { r with phase := .verify }) ?_ ?_ ?_ ?_ ?_ rfl hb hi
    · simp [u, unselected, State.setArm, State.drive]
    · simpa [u, t, unselected, grantEnded, State.setArm, State.drive] using hc
    · simpa [u, t, unselected, grantEnded, State.sched] using hq
    · simp [u, unselected]
    · simp [u, t, unselected, State.track]
  have hwork : u.work = [] := by simpa [u, t, unselected, grantEnded] using hs.2
  rw [take_later hs hf' hwork, drain_hands hidle hwork (drain_does hselect hwork rfl)]
  simp only [u, t, unselected, State.setArm, State.modDrive, State.modSched, State.modTracks, State.setOrient,
    change_change, put_put]
  rfl

end
end Sys2Proof.Machine.StringDataPath
end

section
namespace Sys2Proof.Machine.StringDataPath
open Sys2Proof.Machine.Laws Sys2Proof.Machine.DriveString Sys2Proof.Machine.ChainControl
open Sys2Proof.Machine.PresentationControl

/-! SUPPORT. The last result of a relocation's pass, by its phase (R157 to R161), and PASS_END (log 8). -/

section
variable {d : DriveNo} {p : Pass} {s : State}

theorem buffer_sectorRead (o : Orient) (b : BufNo) (x : SectorNo) (data : List Byte) :
    (sectorRead d o b x data s).buffer b =
      { s.buffer b with
        cells := putCell x ⟨data, false, (s.buffer b).parityForce⟩ (s.buffer b).cells, parityForce := false } :=
  (buffer_modBuffer b b _ _).trans (if_pos rfl)

theorem dirty_sectorRead {o : Orient} {b : BufNo} {x : SectorNo} {data : List Byte} (h : (s.buffer b).dirty = []) :
    ((sectorRead d o b x data s).buffer b).dirty = [] := by
  rw [buffer_sectorRead]
  exact dirty_eq_nil_iff.mpr (dirty_putCell (dirty_eq_nil_iff.mp h) rfl)

/-- The last needed sector read, nothing is still needed (R110). -/
theorem stillNeeded_sectorRead {o : Orient} {b : BufNo} {x : SectorNo} {data : List Byte} 
    (h : ∀ y ∈ o.needed, y = x) : stillNeeded (sectorRead d o b x data s) d = [] := by
  have ho : (sectorRead d o b x data s).orients.get d =
      some { o with needed := o.needed.filter fun y => y != x } := by simp [sectorRead]
  have hn : (o.needed.filter fun y => y != x) = [] := List.filter_eq_nil_iff.mpr fun y hy => by simp [h y hy]
  simp [stillNeeded, ho, hn]

/-- A good result of the last needed sector of READ_OLD (R157, R158). -/
theorem ResultDue.readOld_ends {o : Orient} {r : Relocation} {data : List Byte} {j : SpareNo} (h : ResultDue d p s)
    (hlast : p.taken + 1 = p.length) (hw : p.work = .relocation .readOld) (hd : p.dir = .read)
    (ha : (s.buffer p.buffer).assigned = some (d, p.home)) (ho : s.orients.get d = some o)
    (hx : p.sector p.taken ∈ o.needed) (hall : ∀ y ∈ o.needed, y = p.sector p.taken)
    (hc : (s.buffer p.buffer).dirty = []) (hf : (s.fence d).causes.offTrack = false)
    (hr : (s.track d).reloc = some r) (hj : freeSpare (s.track d) = some j) :
    sectorResult d (p.sector p.taken) (.good data) s =
      ((grantEnded (sectorRead d o p.buffer (p.sector p.taken) data s)).modTracks d fun t =>
        { t with pool := put t.pool j .allocated
                 reloc := some { r with newSpare := some j, phase := .writeNew, pending := rising r.pending } }).later
          [.armIdle d] := by
  let t := sectorRead d o p.buffer (p.sector p.taken) data s
  calc sectorResult d (p.sector p.taken) (.good data) s
    _ = afterResult d t := h.good hd ha ho hx (holdsDirty_clean hc _) hf
    _ = finishPass d (counted p) (passIs (counted p) t) := afterResult_last h.pass h.kept hlast
    _ = readOldEnds d [] (grantEnded t) := by
      have hl : stillNeeded (passIs (counted p) t) d = [] := stillNeeded_sectorRead hall
      rw [finishPass_readOld (p := counted p) hw hl, clearGrant_passIs (p := counted p) h.drive]
    _ = _ := readOldEnds_some (s := grantEnded t) hr hj

theorem ResultDue.writeNew_ends (h : ResultDue d p s) (hlast : p.taken + 1 = p.length)
    (hw : p.work = .relocation .writeNew) (hd : p.dir = .write) :
    sectorResult d (p.sector p.taken) .written s = writeNewEnds d (grantEnded s) := by
  rw [h.relocation_written hd hw, afterResult_last h.pass h.kept hlast, finishPass_writeNew (p := counted p) hw,
    clearGrant_passIs (p := counted p) h.drive]

/-- A good result of the last sector of VERIFY, none noted: COMMIT, here with a buffer that a chain pins too and that
no chain waits for (R159, R161). -/
theorem ResultDue.verify_commits {o : Orient} {r : Relocation} {data : List Byte} {i : SpareNo} {k : CtxNo}
    {y : Context} (h : ResultDue d p s) (hlast : p.taken + 1 = p.length) (hw : p.work = .relocation .verify)
    (hd : p.dir = .read) (hno : p.noted = []) (ha : (s.buffer p.buffer).assigned = some (d, p.home))
    (ho : s.orients.get d = some o) (hx : p.sector p.taken ∈ o.needed) (hc : (s.buffer p.buffer).dirty = [])
    (hf : (s.fence d).causes.offTrack = false) (hr : (s.track d).reloc = some r) (hb : r.buffer = some p.buffer)
    (hi : r.newSpare = some i) (hy : s.ctx k = some y) (hyb : y.buffer = some p.buffer)
    (hwait : ∀ c z, s.ctx c = some z → z.buffer = some p.buffer → z.state ≠ .waitStore .bufferFree) :
    sectorResult d (p.sector p.taken) (.good data) s =
      State.later [.relocOutcome d r.home .relocated, .recordFree d, .armIdle d]
        { ((grantEnded (sectorRead d o p.buffer (p.sector p.taken) data s)).modTracks d (committed r i)).modBuffer
            p.buffer fun q => { q with cells := cleanCells q.cells, relocPin := false } with
          lru := (s.lru.filter fun n => n != p.buffer) ++ [p.buffer] } := by
  let t := sectorRead d o p.buffer (p.sector p.taken) data s
  calc sectorResult d (p.sector p.taken) (.good data) s
    _ = afterResult d t := h.good hd ha ho hx (holdsDirty_clean hc _) hf
    _ = finishPass d (counted p) (passIs (counted p) t) := afterResult_last h.pass h.kept hlast
    _ = commit d (grantEnded t) := by
      rw [finishPass_verified (p := counted p) hw hno, clearGrant_passIs (p := counted p) h.drive]
    _ = _ := commit_shared (s := grantEnded t) hr hi hb (dirty_sectorRead hc) hy hyb hwait

/-- The last sector of VERIFY cannot be read (R159, R160). -/
theorem ResultDue.verify_fails {r : Relocation} {i j : SpareNo} (h : ResultDue d p s)
    (hlast : p.taken + 1 = p.length) (hw : p.work = .relocation .verify) (hd : p.dir = .read)
    (hc : (s.buffer p.buffer).dirty = []) (hr : (s.track d).reloc = some r) (hi : r.newSpare = some i)
    (hj : freeSpare { s.track d with pool := put (s.track d).pool i .retired } = some j) :
    sectorResult d (p.sector p.taken) .uncorrectable s =
      ((grantEnded s).modTracks d fun t =>
        { t with pool := put (put t.pool i .retired) j .allocated
                 reloc := some { r with newSpare := some j, phase := .writeNew } }).later [.armIdle d] := by
  obtain ⟨harm, -, hdr⟩ := passOf_eq_some_iff.mp h.pass
  let q : Pass := { p with noted := p.noted ++ [p.sector p.taken] }
  have hq : passOf (passIs q s) d = some q := passOf_eq_some_iff.mpr ⟨harm, rfl, hdr⟩
  have hno : (counted q).noted ≠ [] := by simp [counted, q]
  calc sectorResult d (p.sector p.taken) .uncorrectable s
    _ = afterResult d (passIs q s) := h.verify_uncorrectable hd hw (holdsDirty_clean hc _)
    _ = finishPass d (counted q) (passIs (counted q) (passIs q s)) := afterResult_last hq h.kept hlast
    _ = spareFails d (grantEnded s) := by
      rw [finishPass_spareFails (p := counted q) hw hno, clearGrant_passIs (p := counted q) hdr]
      rfl
    _ = _ := spareFails_some (s := grantEnded s) hr hi hj

end

/-- Settles O54: the event that ends the pass by the work that the pass served; PASS_END is that event. -/
theorem passEndRetries : Obligations.PassEndRetries := by
  intro d e s hs
  refine ⟨passEnd_none hs, fun p o c y harm hg hpd ho hk hw hd hy hstop hc hb hlast ha hob hx hdirty hr => ?_,
    fun p o harm hg hpd ho hk hc hb hlast ha => ?_⟩
  · have hdue : ResultDue d p s := ⟨passOf_eq_some_iff.mpr ⟨harm, hg, hpd⟩, hk, hc, hb, by omega⟩
    exact hdue.passEnd hs hlast (fits_uncorrectable hd)
      (take_effect hs (hdue.retries hlast ho hw hd hy hstop hob hx hdirty hr) hs.2)
  · have hdue : ResultDue d p s := ⟨passOf_eq_some_iff.mpr ⟨harm, hg, hpd⟩, hk, hc, hb, by omega⟩
    refine ⟨fun hw hd hrun hx hy hdirty hruns hpin hcyl hn hwait hfl => ⟨fun hret => ?_, fun hret => ?_⟩,
      fun r hr hrb => ⟨fun data j hw hd hf hx hall hdirty hj => ?_, fun i hi => ⟨fun hw hd hcyl hq hp => ?_,
        fun data hw hd hno hf hx hdirty ⟨k, y, hy, hyb⟩ hwait => ?_, fun j hw hd hdirty hj => ?_⟩⟩⟩
    · have hends := hdue.destage_ends hs.2 hlast hd hw ha hrun hx hy hruns hcyl hn
      exact hdue.passEnd hs hlast (fits_written hd) (take_destaged_empties hs hends hn hwait hfl hpin ha hdirty hret)
    · have hends := hdue.destage_ends hs.2 hlast hd hw ha hrun hx hy hruns hcyl hn
      exact hdue.passEnd hs hlast (fits_written hd) (take_destaged_retains hs hends hn hwait hfl hpin ha hret)
    · have hends := hdue.readOld_ends (data := data) hlast hw hd ha ho hx hall hdirty hf hr hj
      exact hdue.passEnd hs hlast (fits_good hd data) (take_runs hs hends)
    · have hends := take_writeNewEnds hs (hdue.writeNew_ends hlast hw hd) harm hcyl hq hp hr hrb hi
      rw [← armCleared_pass hdue.pass] at hends
      exact hdue.passEnd hs hlast (fits_written hd) hends
    · have hends := hdue.verify_commits (data := data) hlast hw hd hno ha ho hx hdirty hf hr hrb hi hy hyb hwait
      exact hdue.passEnd hs hlast (fits_good hd data) (take_runs hs hends)
    · have hends := hdue.verify_fails hlast hw hd hdirty hr hi hj
      exact hdue.passEnd hs hlast (fits_uncorrectable hd) (take_runs hs hends)

end Sys2Proof.Machine.StringDataPath
end

section
namespace Sys2Proof.Machine.TrackBuffers
open Sys2Proof.Machine.Laws Sys2Proof.Machine.ReservationControl

/-! SUPPORT. What the commands can do to the Buffer Records and the LRU order: four moves and the power-on clear. Each
law of the track buffers (log 31, R120, R122) is kept by each move, so that it is enough to find every command to be a
run of moves. -/

/-- A change of a Buffer Record that gives it no other track and keeps the canonical form of its store. -/
def Gentle (f : Buffer → Buffer) : Prop :=
  ∀ r, ((f r).assigned = r.assigned ∨ (f r).assigned = none) ∧ (cellsWf r.cells = true → cellsWf (f r).cells = true)

/-- The states that a run of moves leads to: nothing of the Buffer Store changes, a buffer becomes the most recently
used (R120), a record changes gently, an unassigned track is assigned (R122), or the power-on clear empties the store. -/
inductive Reached (a : State) : State → Prop
  | start : Reached a a
  | rests {s t : State} (hb : t.buffers = s.buffers) (hl : t.lru = s.lru) (hs : Reached a s) : Reached a t
  | touches {s : State} (b : BufNo) (hs : Reached a s) : Reached a (touch b s)
  | changes {s : State} (b : BufNo) {f : Buffer → Buffer} (hf : Gentle f) (hs : Reached a s) : Reached a (s.modBuffer b f)
  | assigns {s : State} (b : BufNo) {d : DriveNo} {h : HomeTrack} (hn : ∀ c, (s.buffer c).assigned ≠ some (d, h))
      (hs : Reached a s) : Reached a (s.modBuffer b fun r => { r with assigned := some (d, h) })
  | clears {t : State} (hb : t.buffers = State.reset.buffers) (hl : t.lru = State.reset.lru) : Reached a t

/-- One buffer after a buffer has been changed. -/
theorem buffer_modBuffer (b c : BufNo) (f : Buffer → Buffer) (s : State) :
    (s.modBuffer b f).buffer c = if b = c then f (s.buffer b) else s.buffer c := get_change s.buffers b c f

theorem buffer_reset (b : BufNo) : State.reset.buffer b = Buffer.powerOn := get_replicate _ b

/-- Every move keeps the canonical form of the stores (log 31). -/
theorem Reached.storeLaw {a t : State} (h : Reached a t) (ha : storeLaw a) : storeLaw t := by
  induction h with
  | start => exact ha
  | rests hb _ _ ih => intro c; simpa only [State.buffer, hb] using ih c
  | touches b _ ih => exact ih
  | changes b hf _ ih =>
    intro c
    rw [buffer_modBuffer]
    split
    · exact (hf _).2 (ih b)
    · exact ih c
  | assigns b _ _ ih =>
    intro c
    rw [buffer_modBuffer]
    split
    · exact ih b
    · exact ih c
  | clears hb _ =>
    intro c
    have hc := buffer_reset c
    simp only [State.buffer] at hc
    simp only [State.buffer, hb, hc]
    rfl

/-- Every move leaves the LRU order a list of all six buffers (R120). -/
theorem Reached.lruLaw {a t : State} (h : Reached a t) (ha : lruLaw a) : lruLaw t := by
  induction h with
  | start => exact ha
  | rests _ hl _ ih => simpa only [Machine.lruLaw, hl] using ih
  | touches b _ ih => exact lru_touch b _ ih
  | changes _ _ _ ih => exact ih
  | assigns _ _ _ ih => exact ih
  | clears _ hl => exact .of_eq hl

/-- Every move leaves a track to one buffer at most (R122). -/
theorem Reached.bufferLaw {a t : State} (h : Reached a t) (ha : bufferLaw a) : bufferLaw t := by
  induction h with
  | start => exact ha
  | rests hb _ _ ih => simpa only [Machine.bufferLaw, State.buffer, hb] using ih
  | touches b _ ih => exact ih
  | @changes s b f hf _ ih =>
    have hk : ∀ c, ((s.modBuffer b f).buffer c).assigned ≠ none →
        ((s.modBuffer b f).buffer c).assigned = (s.buffer c).assigned := by
      intro c
      rw [buffer_modBuffer]
      split
      · next e =>
        subst e
        exact fun hne => (hf _).1.resolve_right hne
      · exact fun _ => rfl
    intro c e hc he
    have hce := hk c hc
    rw [hce] at hc
    rw [hce, hk e (he ▸ hce ▸ hc)] at he
    exact ih c e hc he
  | @assigns s b d h hn _ ih =>
    have hk : ∀ c, ((s.modBuffer b fun r => { r with assigned := some (d, h) }).buffer c).assigned =
        if b = c then some (d, h) else (s.buffer c).assigned := by
      intro c
      rw [buffer_modBuffer]
      split <;> rfl
    intro c e hc he
    rw [hk] at hc
    rw [hk, hk] at he
    by_cases hbc : b = c <;> by_cases hbe : b = e
    · exact hbc.symm.trans hbe
    · rw [if_pos hbc, if_neg hbe] at he
      exact absurd he.symm (hn e)
    · rw [if_neg hbc, if_pos hbe] at he
      exact absurd he (hn c)
    · rw [if_neg hbc] at hc
      rw [if_neg hbc, if_neg hbe] at he
      exact ih c e hc he
  | clears hb _ =>
    intro c _ hc
    have hr := buffer_reset c
    simp only [State.buffer] at hr hc
    rw [hb, hr] at hc
    exact absurd rfl hc

/-- What leaves the Buffer Records and the LRU order alone. -/
theorem untouched {a s t : State} (hb : t.buffers = s.buffers) (hl : t.lru = s.lru) : Reached a t = Reached a s :=
  propext ⟨.rests hb.symm hl.symm, .rests hb hl⟩

/-- An operation makes a state one that is reached. -/
def gains (a : State) (f : State → State) (s : State) : Prop := ¬Reached a s ∧ Reached a (f s)

/-- An operation that is a run of moves, as an equation that simp rewrites with. -/
theorem moves {a s : State} {f : State → State} (h : Reached a s → Reached a (f s)) :
    Reached a (f s) = (Reached a s ∨ gains a f s) := by
  unfold gains
  exact propext ⟨fun hf => or_iff_not_imp_left.mpr fun hs => ⟨hs, hf⟩, fun hs => hs.elim h And.right⟩

end Sys2Proof.Machine.TrackBuffers
end

section
namespace Sys2Proof.Machine.TrackBuffers
open Sys2Proof.Machine.Laws

/-! SUPPORT. Every operation is a run of moves of the Buffer Store: for each one equation, whose right side is what was
reached before, with what the operation adds to it where it is one of the Buffer Store's own. The equations form a simp
set. -/

section
variable (a s : State)

/-! The updates of the state. -/

@[simp] theorem reached_modPort (l : LinkNo) (f : Port → Port) : Reached a (s.modPort l f) = Reached a s :=
  untouched rfl rfl
@[simp] theorem reached_modAuth (l : LinkNo) (f : Authority → Authority) :
    Reached a (s.modAuth l f) = Reached a s := untouched rfl rfl
@[simp] theorem reached_modPresent (l : LinkNo) (f : Present → Present) :
    Reached a (s.modPresent l f) = Reached a s := untouched rfl rfl
@[simp] theorem reached_setCtx (c : CtxNo) (x : Option Context) : Reached a (s.setCtx c x) = Reached a s :=
  untouched rfl rfl
@[simp] theorem reached_modCtx (c : CtxNo) (f : Context → Context) : Reached a (s.modCtx c f) = Reached a s :=
  untouched rfl rfl
@[simp] theorem reached_modResv (d : DriveNo) (f : Reservation → Reservation) :
    Reached a (s.modResv d f) = Reached a s := untouched rfl rfl
@[simp] theorem reached_modDrive (d : DriveNo) (f : Drive → Drive) : Reached a (s.modDrive d f) = Reached a s :=
  untouched rfl rfl
@[simp] theorem reached_setArm (d : DriveNo) (k : ArmState) : Reached a (s.setArm d k) = Reached a s :=
  untouched rfl rfl
@[simp] theorem reached_modSched (d : DriveNo) (f : Scheduler → Scheduler) :
    Reached a (s.modSched d f) = Reached a s := untouched rfl rfl
@[simp] theorem reached_setOrient (d : DriveNo) (o : Option Orient) : Reached a (s.setOrient d o) = Reached a s :=
  untouched rfl rfl
@[simp] theorem reached_modTracks (d : DriveNo) (f : Tracks → Tracks) :
    Reached a (s.modTracks d f) = Reached a s := untouched rfl rfl
@[simp] theorem reached_modFence (d : DriveNo) (f : Fence → Fence) : Reached a (s.modFence d f) = Reached a s :=
  untouched rfl rfl
@[simp] theorem reached_frame (l : LinkNo) (f : HostFrame) : Reached a (s.frame l f) = Reached a s := untouched rfl rfl
@[simp] theorem reached_order (d : DriveNo) (o : Order) : Reached a (s.order d o) = Reached a s := untouched rfl rfl
@[simp] theorem reached_later (ts : List Task) : Reached a (s.later ts) = Reached a s := untouched rfl rfl
@[simp] theorem reached_set_ctxWait (v : List LinkNo) : Reached a { s with ctxWait := v } = Reached a s :=
  untouched rfl rfl
@[simp] theorem reached_set_accepted (v : Vector (Option Context) 16) (n : Nat) :
    Reached a { s with contexts := v, acceptCount := n } = Reached a s := untouched rfl rfl
@[simp] theorem reached_set_path (v : Path) : Reached a { s with path := v } = Reached a s := untouched rfl rfl
@[simp] theorem reached_set_bufWait (v : List Waiter) : Reached a { s with bufWait := v } = Reached a s :=
  untouched rfl rfl
@[simp] theorem reached_set_suspects (v : List Suspect) : Reached a { s with suspects := v } = Reached a s :=
  untouched rfl rfl

/-- A Buffer Record changed gently. -/
@[simp] theorem reached_modBuffer (b : BufNo) (f : Buffer → Buffer)
    (hf : ∀ r, ((f r).assigned = r.assigned ∨ (f r).assigned = none) ∧
      (cellsWf r.cells = true → cellsWf (f r).cells = true)) :
    Reached a (s.modBuffer b f) = (Reached a s ∨ gains a (State.modBuffer b f) s) :=
  moves fun hs => .changes b hf hs

@[simp] theorem reached_touch (b : BufNo) : Reached a (touch b s) = (Reached a s ∨ gains a (touch b) s) :=
  moves fun hs => .touches b hs

@[simp] theorem reached_emptyBuffer (b : BufNo) :
    Reached a (emptyBuffer b s) = (Reached a s ∨ gains a (emptyBuffer b) s) :=
  moves fun hs => .changes b (fun _ => ⟨.inr rfl, fun _ => rfl⟩) hs

/-- A track that no buffer holds (R122). -/
theorem assigned_of_holderOf_none {s : State} {d : DriveNo} {h : HomeTrack} (hn : holderOf s d h = none) (c : BufNo) :
    (s.buffer c).assigned ≠ some (d, h) := by
  have hc : c ∈ allBufs := by fin_cases c <;> decide
  simpa using List.find?_eq_none.mp hn c hc

/-- What each application leaves alone, the whole leaves alone. -/
theorem reached_each_same {α : Type} {f : α → State → State} (h : ∀ x t, Reached a (f x t) = Reached a t)
    (xs : List α) : Reached a (each xs f s) = Reached a s :=
  each_keeps (P := fun t => Reached a t = Reached a s) (fun x t ht => (h x t).trans ht) xs s rfl

/-- A run of moves at each application is a run of moves. -/
theorem reached_each {α : Type} {f : α → State → State} (xs : List α) {a s : State}
    (h : ∀ x t, Reached a t → Reached a (f x t)) (hs : Reached a s) : Reached a (each xs f s) :=
  each_keeps h xs s hs

theorem reached_ahead (ts : List Task) {f : State → State} {a s : State} (h : ∀ t, Reached a t → Reached a (f t))
    (hs : Reached a s) : Reached a (State.ahead ts f s) :=
  have ht : Reached a { s with work := [] } := .rests (s := s) rfl rfl hs
  .rests (s := f { s with work := [] }) rfl rfl (h _ ht)

/-! Presentation (chapter 3). -/

/-- What touches only ports, item sets and what is sent leaves the Buffer Store alone. -/
theorem reached_behind {a s t : State} (h : Laws.behind t = Laws.behind s) : Reached a t = Reached a s := by
  simp only [Laws.behind, Prod.mk.injEq] at h
  obtain ⟨-, -, -, -, -, -, -, -, -, -, -, hb, hl, -⟩ := h
  exact untouched hb hl

@[simp] theorem reached_choose (l : LinkNo) : Reached a (choose l s) = Reached a s :=
  reached_behind (behind_choose l s)
@[simp] theorem reached_goIdle (l : LinkNo) : Reached a (goIdle l s) = Reached a s :=
  reached_behind (behind_goIdle l s)
@[simp] theorem reached_setFloor (l : LinkNo) (f : Fin 16) : Reached a (setFloor l f s) = Reached a s :=
  reached_behind (behind_setFloor l f s)
@[simp] theorem reached_setItems (l : LinkNo) (xs : List Item) : Reached a (setItems l xs s) = Reached a s :=
  reached_behind (behind_setItems l xs s)
@[simp] theorem reached_clearSet (l : LinkNo) : Reached a (clearSet l s) = Reached a s :=
  reached_behind (behind_clearSet l s)
@[simp] theorem reached_raise (l : LinkNo) (b : ItemBody) : Reached a (raise l b s) = Reached a s :=
  reached_behind (behind_raise l b s)
@[simp] theorem reached_raiseOn (ls : List LinkNo) (b : ItemBody) : Reached a (raiseOn ls b s) = Reached a s :=
  reached_behind (behind_raiseOn ls b s)
@[simp] theorem reached_raiseDrive (d : DriveNo) (b : ItemBody) : Reached a (raiseDrive d b s) = Reached a s :=
  reached_behind (behind_raiseDrive d b s)
@[simp] theorem reached_withdraw (l : LinkNo) (b : ItemBody) : Reached a (withdraw l b s) = Reached a s :=
  reached_behind (behind_withdraw l b s)
@[simp] theorem reached_endLevel (b : ItemBody) : Reached a (endLevel b s) = Reached a s :=
  reached_behind (behind_endLevel b s)
@[simp] theorem reached_putOff (l : LinkNo) : Reached a (putOff l s) = Reached a s :=
  reached_behind (behind_putOff l s)
@[simp] theorem reached_dataLost (b : BufNo) (xs : List SectorNo) : Reached a (dataLost b xs s) = Reached a s :=
  reached_behind (behind_dataLost b xs s)

@[simp] theorem reached_controllerFree : Reached a (controllerFree s) = Reached a s := by simp [controllerFree]

@[simp] theorem reached_freeCtx (c : CtxNo) : Reached a (freeCtx c s) = Reached a s := by simp [freeCtx]

/-! Reservations (chapter 4). -/

@[simp] theorem reached_handOff (d : DriveNo) : Reached a (handOff d s) = Reached a s := by
  unfold handOff
  split <;> simp

@[simp] theorem reached_clearHolder (d : DriveNo) : Reached a (clearHolder d s) = Reached a s := by simp [clearHolder]

@[simp] theorem reached_leaveWait (l : LinkNo) (d : DriveNo) : Reached a (leaveWait l d s) = Reached a s :=
  untouched rfl rfl

@[simp] theorem reached_reserve (l : LinkNo) (d : DriveNo) (wait : Bool) :
    Reached a (reserve l d wait s) = Reached a s := by
  unfold reserve
  (repeat' split) <;> exact untouched rfl rfl

@[simp] theorem reached_release (l : LinkNo) (d : DriveNo) : Reached a (release l d s) = Reached a s := by
  unfold release
  (repeat' split) <;> simp

@[simp] theorem reached_takeAway (l : LinkNo) (d : DriveNo) :
    Reached a (takeAway l d s) = Reached a s := by simp [takeAway]

@[simp] theorem reached_losePath (l : LinkNo) (d : DriveNo) : Reached a (losePath l d s) = Reached a s := by
  unfold losePath
  split <;> simp

@[simp] theorem reached_loseReservation (l : LinkNo) (d : DriveNo) :
    Reached a (loseReservation l d s) = Reached a s := by
  unfold loseReservation
  split <;> simp

@[simp] theorem reached_loseReservations (l : LinkNo) : Reached a (loseReservations l s) = Reached a s :=
  reached_each_same a _ (fun d t => by simp) _

/-! The Buffer Store (chapter 7). -/

@[simp] theorem reached_joinQueue (d : DriveNo) (w : Work) (home : HomeTrack) :
    Reached a (joinQueue d w home s) = Reached a s := by
  unfold joinQueue
  split <;> exact untouched rfl rfl

@[simp] theorem reached_leaveQueue (d : DriveNo) (w : Work) : Reached a (leaveQueue d w s) = Reached a s :=
  untouched rfl rfl

@[simp] theorem reached_giveItem (b : BufNo) : Reached a (giveItem b s) = (Reached a s ∨ gains a (giveItem b) s) :=
  moves fun hs => by unfold giveItem; split <;> simp [hs]

@[simp] theorem reached_joinTogether (bs : List BufNo) :
    Reached a (joinTogether bs s) = (Reached a s ∨ gains a (joinTogether bs) s) :=
  moves fun hs => reached_each bs (fun b t ht => by simp [ht]) hs

@[simp] theorem reached_joinInTurn (bs : List BufNo) :
    Reached a (joinInTurn bs s) = (Reached a s ∨ gains a (joinInTurn bs) s) :=
  moves fun hs => reached_each bs (fun b t ht => by split <;> simp [ht]) hs

@[simp] theorem reached_flushItems (d : DriveNo) :
    Reached a (flushItems d s) = (Reached a s ∨ gains a (flushItems d) s) :=
  moves fun hs => by simp [flushItems, hs]

theorem reached_throughItems {join : List BufNo → State → State} {a s : State} (d : DriveNo)
    (h : ∀ bs t, Reached a t → Reached a (join bs t)) (hs : Reached a s) : Reached a (throughItems join d s) :=
  h _ s hs

@[simp] theorem reached_reclaim : Reached a (reclaim s) = (Reached a s ∨ gains a reclaim s) :=
  moves fun hs => by unfold reclaim; split <;> simp [hs]

@[simp] theorem reached_unlist (gone : Waiter → Bool) : Reached a (unlist gone s) = Reached a s := untouched rfl rfl

@[simp] theorem reached_reclaimCheck : Reached a (reclaimCheck s) = (Reached a s ∨ gains a reclaimCheck s) :=
  moves fun hs => by unfold reclaimCheck; split <;> simp [hs]

@[simp] theorem reached_suspendCtx (c : CtxNo) : Reached a (suspendCtx c s) = Reached a s := by
  unfold suspendCtx
  (repeat' split) <;> simp

@[simp] theorem reached_suspendStaging (b : BufNo) : Reached a (suspendStaging b s) = Reached a s :=
  reached_each_same a _ (fun c t => by simp) _

@[simp] theorem reached_stage (c : CtxNo) : Reached a (stage c s) = Reached a s := by
  unfold stage
  (repeat' split) <;> simp

@[simp] theorem reached_resumeStaging (b : BufNo) : Reached a (resumeStaging b s) = Reached a s := by
  unfold resumeStaging
  split
  · rfl
  · exact reached_each_same a _ (fun c t => by simp) _

@[simp] theorem reached_assign (who : Requester) (d : DriveNo) (b : BufNo) :
    Reached a (assign who d b s) = (Reached a s ∨ gains a (assign who d b) s) :=
  moves fun hs => by unfold assign; split <;> simp [hs]

/-- A requester's buffer holds its track already, or takes it when no buffer holds it (R122). -/
theorem reached_allocate {w : Waiter} {a s t : State} (h : allocate w s = some t) (hs : Reached a s) : Reached a t := by
  unfold allocate at h
  split at h
  · cases h
    simp [hs]
  · next hn =>
    split at h
    · next b _ =>
      cases h
      have hfree : ∀ c, ((emptyBuffer b s).buffer c).assigned ≠ some (w.drive, w.home) := by
        intro c
        rw [buffer_emptyBuffer]
        split
        · simp [Buffer.powerOn]
        · exact assigned_of_holderOf_none hn c
      have he : Reached a (emptyBuffer b s) := by simp [hs]
      simp [Reached.assigns b hfree he]
    · cases h

@[simp] theorem reached_request (w : Waiter) : Reached a (request w s) = (Reached a s ∨ gains a (request w) s) :=
  moves fun hs => by
    unfold request
    split
    · next t ht => exact reached_allocate ht hs
    · simp [hs]

@[simp] theorem reached_serveWaiter (w : Waiter) :
    Reached a (serveWaiter w s) = (Reached a s ∨ gains a (serveWaiter w) s) :=
  moves fun hs => by
    unfold serveWaiter
    cases ht : allocate w s with
    | none => exact hs
    | some t => exact reached_allocate ht hs

theorem reached_serveTimes {a : State} (n : Nat) : ∀ {s : State}, Reached a s → Reached a (serveTimes n s) := by
  induction n with
  | zero => exact fun hs => hs
  | succ n ih =>
    intro s hs
    unfold serveTimes
    split
    · exact hs
    · split
      · exact ih (reached_each _ (fun w t ht => by simp [ht]) (by simp [hs]))
      · exact hs

@[simp] theorem reached_serve : Reached a (serve s) = (Reached a s ∨ gains a serve s) :=
  moves fun hs => reached_serveTimes _ hs

@[simp] theorem reached_flushTest (d : DriveNo) : Reached a (flushTest d s) = Reached a s := by
  unfold flushTest
  split
  · rfl
  · exact reached_each_same a _ (fun c t => by simp) _

@[simp] theorem reached_emptyOf (d : DriveNo) (b : BufNo) :
    Reached a (emptyOf d b s) = (Reached a s ∨ gains a (emptyOf d b) s) :=
  moves fun hs => by simp [emptyOf, hs]

@[simp] theorem reached_retainRule (b : BufNo) :
    Reached a (retainRule b s) = (Reached a s ∨ gains a (retainRule b) s) :=
  moves fun hs => by unfold retainRule; (repeat' split) <;> simp [hs]

@[simp] theorem reached_afterUnpin (b : BufNo) :
    Reached a (afterUnpin b s) = (Reached a s ∨ gains a (afterUnpin b) s) :=
  moves fun hs => by unfold afterUnpin; dsimp only; (repeat' split) <;> simp [hs]

@[simp] theorem reached_leftDirty (b : BufNo) : Reached a (leftDirty b s) = (Reached a s ∨ gains a (leftDirty b) s) :=
  moves fun hs => by unfold leftDirty; dsimp only; (repeat' split) <;> simp [hs]

@[simp] theorem reached_noteStored (b : BufNo) (x : SectorNo) : Reached a (noteStored b x s) = Reached a s :=
  untouched rfl rfl

@[simp] theorem reached_storeCell (b : BufNo) (x : SectorNo) (data : List Byte) (dirty : Bool) :
    Reached a (storeCell b x data dirty s) = (Reached a s ∨ gains a (storeCell b x data dirty) s) :=
  moves fun hs => .changes b (fun r => ⟨.inl rfl, cellsWf_putCell x _ r.cells⟩) hs

@[simp] theorem reached_storeFrame (l : LinkNo) (b : BufNo) (x : SectorNo) (data : List Byte) :
    Reached a (storeFrame l b x data s) = (Reached a s ∨ gains a (storeFrame l b x data) s) :=
  moves fun hs => by unfold storeFrame; dsimp only; (repeat' split) <;> simp [hs]

@[simp] theorem reached_cleanSector (b : BufNo) (x : SectorNo) :
    Reached a (cleanSector b x s) = (Reached a s ∨ gains a (cleanSector b x) s) :=
  moves fun hs => by
    have ht : Reached a (s.modBuffer b fun r => { r with cells := cleanCell x r.cells }) :=
      .changes b (fun r => ⟨.inl rfl, cellsWf_cleanCell x r.cells⟩) hs
    unfold cleanSector
    dsimp only
    split <;> simp [ht]

@[simp] theorem reached_capture (k : Capture) : Reached a (capture k s) = Reached a s := by
  unfold capture
  split <;> exact untouched rfl rfl

@[simp] theorem reached_parityFailure (b : BufNo) (x : SectorNo) (toDrive : Bool) (by_ : CaptureBy) :
    Reached a (parityFailure b x toDrive by_ s) = (Reached a s ∨ gains a (parityFailure b x toDrive by_) s) :=
  moves fun hs => by
    have hd : ∀ t, Reached a t → Reached a (t.modBuffer b fun r => { r with cells := dropCell x r.cells }) :=
      fun t ht => .changes b (fun r => ⟨.inl rfl, cellsWf_dropCell x r.cells⟩) ht
    unfold parityFailure
    dsimp only
    (repeat' split) <;> simp [hd, hs]

@[simp] theorem reached_unpin (c : CtxNo) : Reached a (unpin c s) = (Reached a s ∨ gains a (unpin c) s) :=
  moves fun hs => by unfold unpin; split <;> simp [hs]

@[simp] theorem reached_clearRelocPin (b : BufNo) :
    Reached a (clearRelocPin b s) = (Reached a s ∨ gains a (clearRelocPin b) s) :=
  moves fun hs => by simp [clearRelocPin, hs]

@[simp] theorem reached_destageEnded (d : DriveNo) (b : BufNo) :
    Reached a (destageEnded d b s) = (Reached a s ∨ gains a (destageEnded d b) s) :=
  moves fun hs => by unfold destageEnded; dsimp only; (repeat' split) <;> simp [hs]

@[simp] theorem reached_destageStopped (b : BufNo) :
    Reached a (destageStopped b s) = (Reached a s ∨ gains a (destageStopped b) s) :=
  moves fun hs => by unfold destageStopped; dsimp only; (repeat' split) <;> simp [hs]

/-! Alternate and suspect tracks (chapters 8 and 9). -/

@[simp] theorem reached_evalSpares (d : DriveNo) : Reached a (evalSpares d s) = Reached a s := by
  unfold evalSpares
  dsimp only
  (repeat' split) <;> simp

@[simp] theorem reached_endSparesLow (d : DriveNo) : Reached a (endSparesLow d s) = Reached a s := by
  unfold endSparesLow
  split <;> simp

@[simp] theorem reached_staleMapCursors (d : DriveNo) : Reached a (staleMapCursors d s) = Reached a s :=
  reached_each_same a _ (fun l t => by simp) _

@[simp] theorem reached_staleSuspectCursors : Reached a (staleSuspectCursors s) = Reached a s :=
  reached_each_same a _ (fun l t => by simp) _

@[simp] theorem reached_removeSuspects (gone : Suspect → Bool) : Reached a (removeSuspects gone s) = Reached a s := by
  unfold removeSuspects
  split <;> simp

@[simp] theorem reached_modSuspect (d : DriveNo) (h : HomeTrack) (f : Suspect → Suspect) :
    Reached a (modSuspect d h f s) = Reached a s := untouched rfl rfl

@[simp] theorem reached_report (d : DriveNo) (h : HomeTrack) : Reached a (report d h s) = Reached a s := by
  unfold report
  (repeat' split) <;> simp

@[simp] theorem reached_threshold (d : DriveNo) (h : HomeTrack) : Reached a (threshold d h s) = Reached a s := by
  unfold threshold
  (repeat' split) <;> simp

@[simp] theorem reached_recordFree (d : DriveNo) : Reached a (recordFree d s) = Reached a s := by
  unfold recordFree
  (repeat' split)
  · rfl
  · rfl
  · simp
  · exact (reached_each_same a _ (fun e t => by simp) _).trans (reached_set_suspects a s _)

@[simp] theorem reached_relocOutcome (d : DriveNo) (h : HomeTrack) (o : RelocOutcome) :
    Reached a (relocOutcome d h o s) = Reached a s := by
  unfold relocOutcome
  dsimp only
  (repeat' split) <;> simp

@[simp] theorem reached_setSpare (d : DriveNo) (i : SpareNo) (k : SpareState) :
    Reached a (setSpare d i k s) = Reached a s := untouched rfl rfl

@[simp] theorem reached_modReloc (d : DriveNo) (f : Relocation → Relocation) :
    Reached a (modReloc d f s) = Reached a s := untouched rfl rfl

@[simp] theorem reached_removeRecord (d : DriveNo) (r : Relocation) :
    Reached a (removeRecord d r s) = (Reached a s ∨ gains a (removeRecord d r) s) :=
  moves fun hs => by unfold removeRecord; split <;> simp [hs]

@[simp] theorem reached_createRelocation (d : DriveNo) (h : HomeTrack) :
    Reached a (createRelocation d h s) = (Reached a s ∨ gains a (createRelocation d h) s) :=
  moves fun hs => by unfold createRelocation; dsimp only; (repeat' split) <;> simp [hs]

@[simp] theorem reached_beginAgain (d : DriveNo) : Reached a (beginAgain d s) = Reached a s := by
  unfold beginAgain
  (repeat' split) <;> exact untouched rfl rfl

@[simp] theorem reached_holdBuffer (d : DriveNo) : Reached a (holdBuffer d s) = Reached a s := by
  unfold holdBuffer
  (repeat' split) <;> exact untouched rfl rfl

@[simp] theorem reached_relocFailed (d : DriveNo) (r : Relocation) :
    Reached a (relocFailed d r s) = (Reached a s ∨ gains a (relocFailed d r) s) :=
  moves fun hs => by simp [relocFailed, hs]

@[simp] theorem reached_takeSpare (d : DriveNo) :
    Reached a (takeSpare d s) = (Reached a s ∨ gains a (takeSpare d) s) :=
  moves fun hs => by unfold takeSpare; (repeat' split) <;> simp [hs]

@[simp] theorem reached_readOldEnds (d : DriveNo) (left : List SectorNo) :
    Reached a (readOldEnds d left s) = (Reached a s ∨ gains a (readOldEnds d left) s) :=
  moves fun hs => by simp [readOldEnds, hs]

@[simp] theorem reached_spareFails (d : DriveNo) :
    Reached a (spareFails d s) = (Reached a s ∨ gains a (spareFails d) s) :=
  moves fun hs => by unfold spareFails; (repeat' split) <;> simp [hs]

@[simp] theorem reached_writeNewEnds (d : DriveNo) : Reached a (writeNewEnds d s) = Reached a s := untouched rfl rfl

@[simp] theorem reached_commit (d : DriveNo) : Reached a (commit d s) = (Reached a s ∨ gains a (commit d) s) :=
  moves fun hs => by
    have hc : ∀ b t, Reached a t → Reached a (t.modBuffer b fun k => { k with cells := cleanCells k.cells }) :=
      fun b t ht => .changes b (fun k => ⟨.inl rfl, cellsWf_cleanCells k.cells⟩) ht
    unfold commit
    (repeat' split) <;> simp [hc, hs]

@[simp] theorem reached_abandon (d : DriveNo) : Reached a (abandon d s) = (Reached a s ∨ gains a (abandon d) s) :=
  moves fun hs => by unfold abandon; (repeat' split) <;> simp [hs]

@[simp] theorem reached_written (d : DriveNo) (h : HomeTrack) (x : SectorNo) :
    Reached a (written d h x s) = Reached a s := untouched rfl rfl

/-! The arm (chapters 1 and 5). -/

@[simp] theorem reached_startRecal (d : DriveNo) (why : RecalReason) :
    Reached a (startRecal d why s) = Reached a s := untouched rfl rfl

@[simp] theorem reached_clearGrant (d : DriveNo) : Reached a (clearGrant d s) = Reached a s := untouched rfl rfl

@[simp] theorem reached_dropSelection (d : DriveNo) : Reached a (dropSelection d s) = Reached a s := untouched rfl rfl

theorem reached_applyPolicy {join : List BufNo → State → State} {a s : State} (d : DriveNo)
    (h : ∀ bs t, Reached a t → Reached a (join bs t)) (hs : Reached a s) : Reached a (applyPolicy join d s) := by
  have hj : ∀ t, Reached a t → Reached a (throughItems join d t) := fun t ht => reached_throughItems d h ht
  unfold applyPolicy
  dsimp only
  (repeat' split) <;> simp [hj, hs]

@[simp] theorem reached_applyPolicy_together (d : DriveNo) :
    Reached a (applyPolicy joinTogether d s) = (Reached a s ∨ gains a (applyPolicy joinTogether d) s) :=
  moves (reached_applyPolicy d fun bs t ht => by simp [ht])

@[simp] theorem reached_applyPolicy_inTurn (d : DriveNo) :
    Reached a (applyPolicy joinInTurn d s) = (Reached a s ∨ gains a (applyPolicy joinInTurn d) s) :=
  moves (reached_applyPolicy d fun bs t ht => by simp [ht])

@[simp] theorem reached_enterIdle (d : DriveNo) :
    Reached a (enterIdle d s) = (Reached a s ∨ gains a (enterIdle d) s) :=
  moves fun hs => by unfold enterIdle; split <;> simp [hs]

@[simp] theorem reached_armIdle (d : DriveNo) : Reached a (armIdle d s) = (Reached a s ∨ gains a (armIdle d) s) :=
  moves fun hs => by unfold armIdle; split <;> simp [hs]

@[simp] theorem reached_givePasses (d : DriveNo) (i : QueueItem) : Reached a (givePasses d i s) = Reached a s := by
  unfold givePasses
  split <;> exact untouched rfl rfl

@[simp] theorem reached_orientTo (d : DriveNo) (o : Orient) : Reached a (orientTo d o s) = Reached a s :=
  untouched rfl rfl

@[simp] theorem reached_endDestage (d : DriveNo) (b : BufNo) :
    Reached a (endDestage d b s) = (Reached a s ∨ gains a (endDestage d b) s) :=
  moves fun hs => reached_ahead _ (fun t ht => by simp [ht]) (by simp [hs])

@[simp] theorem reached_destageNext (d : DriveNo) (b : BufNo) (home : HomeTrack) (after : Option SectorNo) :
    Reached a (destageNext d b home after s) = (Reached a s ∨ gains a (destageNext d b home after) s) :=
  moves fun hs => by unfold destageNext; split <;> simp [hs]

@[simp] theorem reached_relocArrives (d : DriveNo) (phase : RelocPhase) :
    Reached a (relocArrives d phase s) = (Reached a s ∨ gains a (relocArrives d phase) s) :=
  moves fun hs => by unfold relocArrives; dsimp only; (repeat' split) <;> simp [hs]

@[simp] theorem reached_arrived (d : DriveNo) : Reached a (arrived d s) = (Reached a s ∨ gains a (arrived d) s) :=
  moves fun hs => by unfold arrived; (repeat' split) <;> simp [hs]

@[simp] theorem reached_startSeek (d : DriveNo) :
    Reached a (startSeek d s) = (Reached a s ∨ gains a (startSeek d) s) :=
  moves fun hs => by unfold startSeek; (repeat' split) <;> simp [hs]

@[simp] theorem reached_engage (d : DriveNo) (w : Work) :
    Reached a (engage d w s) = (Reached a s ∨ gains a (engage d w) s) :=
  moves fun hs => by unfold engage; split <;> simp [hs]

@[simp] theorem reached_selectItem (d : DriveNo) (cur : Fin 604) (i : QueueItem) :
    Reached a (selectItem d cur i s) = (Reached a s ∨ gains a (selectItem d cur i) s) :=
  moves fun hs => by unfold selectItem; dsimp only; (repeat' split) <;> simp [hs]

@[simp] theorem reached_select (d : DriveNo) : Reached a (select d s) = (Reached a s ∨ gains a (select d) s) :=
  moves fun hs => by unfold select; (repeat' split) <;> simp [hs]

@[simp] theorem reached_settleEnds (d : DriveNo) :
    Reached a (settleEnds d s) = (Reached a s ∨ gains a (settleEnds d) s) :=
  moves fun hs => by unfold settleEnds; (repeat' split) <;> simp [hs]

@[simp] theorem reached_settleTick (d : DriveNo) :
    Reached a (settleTick d s) = (Reached a s ∨ gains a (settleTick d) s) :=
  moves fun hs => by unfold settleTick; (repeat' split) <;> simp [hs]

@[simp] theorem reached_destageCut (d : DriveNo) (k : Selection) (b : BufNo) :
    Reached a (destageCut d k b s) = (Reached a s ∨ gains a (destageCut d k b) s) :=
  moves fun hs => by unfold destageCut; split <;> simp [hs]

/-! Chains (chapter 2). -/

@[simp] theorem reached_withdrawFrom (c : CtxNo) (x : Context) : Reached a (withdrawFrom c x s) = Reached a s := by
  unfold withdrawFrom
  dsimp only
  (repeat' split) <;> simp

theorem reached_beginEnding {arm : State → State} {a s : State} (c : CtxNo) (cond : Condition)
    (entry : Option Nat) (sectors : List SectorNo) (h : ∀ t, Reached a t → Reached a (arm t)) (hs : Reached a s) :
    Reached a (beginEnding c cond entry sectors arm s) := by
  unfold beginEnding
  split
  · dsimp only
    split
    · exact h _ (by simp [hs])
    · simp [hs]
  · exact hs

theorem reached_endChain {arm : State → State} {a s : State} (c : CtxNo) (cond : Condition)
    (entry : Option Nat) (sectors : List SectorNo) (h : ∀ t, Reached a t → Reached a (arm t)) (hs : Reached a s) :
    Reached a (endChain c cond entry sectors arm s) := by
  unfold endChain
  (repeat' split) <;> simp [reached_beginEnding _ _ _ _ h, hs]

/-- A chain that ends with no course for the arm. -/
@[simp] theorem reached_endChain_id (c : CtxNo) (cond : Condition) (entry : Option Nat) (sectors : List SectorNo) :
    Reached a (endChain c cond entry sectors id s) =
      (Reached a s ∨ gains a (endChain c cond entry sectors id) s) :=
  moves (reached_endChain c cond entry sectors fun _ ht => ht)

@[simp] theorem reached_raiseEnding (c : CtxNo) : Reached a (raiseEnding c s) = Reached a s := by
  unfold raiseEnding
  (repeat' split) <;> simp

@[simp] theorem reached_endAtEntry (c : CtxNo) (cond : Condition) (sectors : List SectorNo) :
    Reached a (endAtEntry c cond sectors s) = (Reached a s ∨ gains a (endAtEntry c cond sectors) s) :=
  moves fun hs => by
    unfold endAtEntry
    split
    · exact reached_endChain _ _ _ _ (fun t ht => by simp [ht]) hs
    · exact hs

@[simp] theorem reached_detachArm (d : DriveNo) :
    Reached a (detachArm d s) = (Reached a s ∨ gains a (detachArm d) s) :=
  moves fun hs => by unfold detachArm; split <;> simp [hs]

@[simp] theorem reached_withdrawQuietly (c : CtxNo) :
    Reached a (withdrawQuietly c s) = (Reached a s ∨ gains a (withdrawQuietly c) s) :=
  moves fun hs => by unfold withdrawQuietly; (repeat' split) <;> simp [hs]

@[simp] theorem reached_freeWithdrawn (c : CtxNo) :
    Reached a (freeWithdrawn c s) = (Reached a s ∨ gains a (freeWithdrawn c) s) :=
  moves fun hs => by simp [freeWithdrawn, hs]

@[simp] theorem reached_freeContext (c : CtxNo) : Reached a (freeContext c s) = Reached a s := by
  unfold freeContext
  split <;> simp

@[simp] theorem reached_giveUpArm (c : CtxNo) (x : Context) :
    Reached a (giveUpArm c x s) = (Reached a s ∨ gains a (giveUpArm c x) s) :=
  moves fun hs => by unfold giveUpArm; split <;> simp [hs]

@[simp] theorem reached_needArm (c : CtxNo) (x : Context) : Reached a (needArm c x s) = Reached a s := by
  unfold needArm
  (repeat' split) <;> simp

@[simp] theorem reached_advance (c : CtxNo) : Reached a (advance c s) = Reached a s := untouched rfl rfl

@[simp] theorem reached_walkRead (c : CtxNo) (x : Context) (first : SectorNo) (count : Nat) :
    Reached a (walkRead c x first count s) = (Reached a s ∨ gains a (walkRead c x first count) s) :=
  moves fun hs => by unfold walkRead; dsimp only; (repeat' split) <;> simp [hs]

@[simp] theorem reached_walkWrite (c : CtxNo) (x : Context) (first : SectorNo) (count : Nat) :
    Reached a (walkWrite c x first count s) = Reached a s := by
  unfold walkWrite
  (repeat' split) <;> simp

@[simp] theorem reached_walk (c : CtxNo) : Reached a (walk c s) = (Reached a s ∨ gains a (walk c) s) :=
  moves fun hs => by unfold walk; (repeat' split) <;> simp [hs]

@[simp] theorem reached_startStep (c : CtxNo) : Reached a (startStep c s) = (Reached a s ∨ gains a (startStep c) s) :=
  moves fun hs => by unfold startStep; (repeat' split) <;> simp [hs]

@[simp] theorem reached_assigned (c : CtxNo) : Reached a (assigned c s) = (Reached a s ∨ gains a (assigned c) s) :=
  moves fun hs => by unfold assigned; (repeat' split) <;> simp [hs]

@[simp] theorem reached_endStep (c : CtxNo) : Reached a (endStep c s) = (Reached a s ∨ gains a (endStep c) s) :=
  moves fun hs => by simp [endStep, hs]

@[simp] theorem reached_nextStep (c : CtxNo) : Reached a (nextStep c s) = (Reached a s ∨ gains a (nextStep c) s) :=
  moves fun hs => by unfold nextStep; (repeat' split) <;> simp [hs]

@[simp] theorem reached_readDone (c : CtxNo) : Reached a (readDone c s) = (Reached a s ∨ gains a (readDone c) s) :=
  moves fun hs => by unfold readDone; (repeat' split) <;> simp [hs]

@[simp] theorem reached_deliver (c : CtxNo) : Reached a (deliver c s) = (Reached a s ∨ gains a (deliver c) s) :=
  moves fun hs => by unfold deliver; dsimp only; (repeat' split) <;> simp [hs]

@[simp] theorem reached_flushWait (c : CtxNo) : Reached a (flushWait c s) = (Reached a s ∨ gains a (flushWait c) s) :=
  moves fun hs => by unfold flushWait; (repeat' split) <;> simp [hs]

/-! Passes (chapter 6). -/

@[simp] theorem reached_modPass (f : Pass → Pass) : Reached a (modPass f s) = Reached a s := untouched rfl rfl

@[simp] theorem reached_clearDropped (d : DriveNo) (p : Pass) :
    Reached a (clearDropped d p s) = (Reached a s ∨ gains a (clearDropped d p) s) :=
  moves fun hs => by unfold clearDropped; dsimp only; (repeat' split) <;> simp [hs]

@[simp] theorem reached_endDropped (d : DriveNo) (p : Pass) :
    Reached a (endDropped d p s) = (Reached a s ∨ gains a (endDropped d p) s) :=
  moves fun hs => by simp [endDropped, hs]

@[simp] theorem reached_stopStep (d : DriveNo) (c : CtxNo) (cond : Condition) (x : SectorNo) (before : List Task) :
    Reached a (stopStep d c cond x before s) = Reached a s := by
  unfold stopStep
  split <;> exact untouched rfl rfl

@[simp] theorem reached_stopFault (d : DriveNo) (p : Pass) (x : SectorNo) :
    Reached a (stopFault d p x s) = (Reached a s ∨ gains a (stopFault d p x) s) :=
  moves fun hs => by unfold stopFault; (repeat' split) <;> simp [hs]

@[simp] theorem reached_withhold (d : DriveNo) (p : Pass) (x : SectorNo) :
    Reached a (withhold d p x s) = (Reached a s ∨ gains a (withhold d p x) s) :=
  moves fun hs => by unfold withhold; (repeat' split) <;> simp [hs]

@[simp] theorem reached_beginSector (d : DriveNo) (p : Pass) :
    Reached a (beginSector d p s) = (Reached a s ∨ gains a (beginSector d p) s) :=
  moves fun hs => by unfold beginSector; dsimp only; (repeat' split) <;> simp [hs]

@[simp] theorem reached_grantPass (d : DriveNo) (o : Orient) :
    Reached a (grantPass d o s) = (Reached a s ∨ gains a (grantPass d o) s) :=
  moves fun hs => by unfold grantPass cancelBooking; dsimp only; (repeat' split) <;> simp [hs]

@[simp] theorem reached_miss (d : DriveNo) (o : Orient) : Reached a (miss d o s) = Reached a s := by
  unfold miss
  dsimp only
  split <;> exact untouched rfl rfl

@[simp] theorem reached_claim (d : DriveNo) (x : SectorNo) :
    Reached a (claim d x s) = (Reached a s ∨ gains a (claim d x) s) :=
  moves fun hs => by unfold claim; (repeat' split) <;> simp [hs]

@[simp] theorem reached_retryPass (d : DriveNo) (o : Orient) (left : List SectorNo) :
    Reached a (retryPass d o left s) = Reached a s := untouched rfl rfl

@[simp] theorem reached_finishPass (d : DriveNo) (p : Pass) :
    Reached a (finishPass d p s) = (Reached a s ∨ gains a (finishPass d p) s) :=
  moves fun hs => by unfold finishPass; dsimp only; (repeat' split) <;> simp [hs]

@[simp] theorem reached_satisfied (d : DriveNo) (x : SectorNo) : Reached a (satisfied d x s) = Reached a s :=
  untouched rfl rfl

@[simp] theorem reached_takeWritten (d : DriveNo) (p : Pass) (x : SectorNo) :
    Reached a (takeWritten d p x s) = (Reached a s ∨ gains a (takeWritten d p x) s) :=
  moves fun hs => by unfold takeWritten; (repeat' split) <;> simp [hs]

@[simp] theorem reached_afterResult (d : DriveNo) :
    Reached a (afterResult d s) = (Reached a s ∨ gains a (afterResult d) s) :=
  moves fun hs => by unfold afterResult; dsimp only; (repeat' split) <;> simp [hs]

@[simp] theorem reached_takeRead (d : DriveNo) (p : Pass) (x : SectorNo) (data : Option (List Byte)) :
    Reached a (takeRead d p x data s) = (Reached a s ∨ gains a (takeRead d p x data) s) :=
  moves fun hs => by unfold takeRead; dsimp only; (repeat' split) <;> simp [hs]

@[simp] theorem reached_takeNext (d : DriveNo) (r : PassResult) :
    Reached a (takeNext d r s) = (Reached a s ∨ gains a (takeNext d r) s) :=
  moves fun hs => by unfold takeNext; dsimp only; (repeat' split) <;> simp [hs]

@[simp] theorem reached_sectorResult (d : DriveNo) (sec : SectorNo) (r : PassResult) :
    Reached a (sectorResult d sec r s) = (Reached a s ∨ gains a (sectorResult d sec r) s) :=
  moves fun hs => by unfold sectorResult; (repeat' split) <;> simp [hs]

@[simp] theorem reached_closeSector (d : DriveNo) :
    Reached a (closeSector d s) = (Reached a s ∨ gains a (closeSector d) s) :=
  moves fun hs => by unfold closeSector; dsimp only; (repeat' split) <;> simp [hs]

/-! Fences (chapter 10). -/

@[simp] theorem reached_sendSafeState (d : DriveNo) : Reached a (sendSafeState d s) = Reached a s := by
  unfold sendSafeState
  split <;> simp

@[simp] theorem reached_cutPass (d : DriveNo) : Reached a (cutPass d s) = (Reached a s ∨ gains a (cutPass d) s) :=
  moves fun hs => by unfold cutPass; (repeat' split) <;> simp [hs]

@[simp] theorem reached_enterFenced (d : DriveNo) :
    Reached a (enterFenced d s) = (Reached a s ∨ gains a (enterFenced d) s) :=
  moves fun hs => by simp [enterFenced, hs]

@[simp] theorem reached_fenceArm (d : DriveNo) : Reached a (fenceArm d s) = (Reached a s ∨ gains a (fenceArm d) s) :=
  moves fun hs => by unfold fenceArm; split <;> simp [hs]

@[simp] theorem reached_fenceWork (d : DriveNo) (k : Option Selection) :
    Reached a (fenceWork d k s) = (Reached a s ∨ gains a (fenceWork d k) s) :=
  moves fun hs => by unfold fenceWork; (repeat' split) <;> simp [hs]

@[simp] theorem reached_actOfFencing (d : DriveNo) :
    Reached a (actOfFencing d s) = (Reached a s ∨ gains a (actOfFencing d) s) :=
  moves fun hs => by simp [actOfFencing, hs]

@[simp] theorem reached_fenceTest (d : DriveNo) :
    Reached a (fenceTest d s) = (Reached a s ∨ gains a (fenceTest d) s) :=
  moves fun hs => by unfold fenceTest; dsimp only; (repeat' split) <;> simp [hs]

@[simp] theorem reached_clearFlag (d : DriveNo) : Reached a (clearFlag d s) = Reached a s := untouched rfl rfl

@[simp] theorem reached_autoReleaseTest (d : DriveNo) : Reached a (autoReleaseTest d s) = Reached a s := by
  unfold autoReleaseTest
  dsimp only
  (repeat' split) <;> simp

@[simp] theorem reached_releaseRecord (d : DriveNo) : Reached a (releaseRecord d s) = Reached a s := by
  unfold releaseRecord
  split <;> simp

@[simp] theorem reached_releaseItems (d : DriveNo) :
    Reached a (releaseItems d s) = (Reached a s ∨ gains a (releaseItems d) s) :=
  moves fun hs => by simp [releaseItems, hs]

@[simp] theorem reached_releaseFence (d : DriveNo) :
    Reached a (releaseFence d s) = (Reached a s ∨ gains a (releaseFence d) s) :=
  moves fun hs => by unfold releaseFence; dsimp only; (repeat' split) <;> simp [hs]

@[simp] theorem reached_raiseReady (d : DriveNo) (why : Option RecalReason) :
    Reached a (raiseReady d why s) = Reached a s := by
  unfold raiseReady
  split <;> simp

@[simp] theorem reached_idleReady (d : DriveNo) (why : Option RecalReason) :
    Reached a (idleReady d why s) = (Reached a s ∨ gains a (idleReady d why) s) :=
  moves fun hs => by simp [idleReady, hs]

@[simp] theorem reached_recalibrated (d : DriveNo) :
    Reached a (recalibrated d s) = (Reached a s ∨ gains a (recalibrated d) s) :=
  moves fun hs => by unfold recalibrated; (repeat' split) <;> simp [hs]

@[simp] theorem reached_purge (d : DriveNo) : Reached a (purge d s) = (Reached a s ∨ gains a (purge d) s) :=
  moves fun hs => reached_each _ (fun c t ht => by simp [ht]) hs

/-! The loss of a drive (R13, R14). -/

@[simp] theorem reached_dropDrive (d : DriveNo) (ready late : Bool) :
    Reached a (dropDrive d ready late s) = (Reached a s ∨ gains a (dropDrive d ready late) s) :=
  moves fun hs => by
    unfold dropDrive
    rw [reached_later]
    refine reached_each _ (fun c t ht => by simp [ht]) (reached_each _ (fun c t ht => ?_) (by simp [hs]))
    exact reached_beginEnding c _ _ _ (fun _ hu => hu) ht

@[simp] theorem reached_loseBuffer (b : BufNo) :
    Reached a (loseBuffer b s) = (Reached a s ∨ gains a (loseBuffer b) s) :=
  moves fun hs => by unfold loseBuffer; dsimp only; (repeat' split) <;> simp [hs]

@[simp] theorem reached_losePack (d : DriveNo) (wasFenced : Bool) :
    Reached a (losePack d wasFenced s) = (Reached a s ∨ gains a (losePack d wasFenced) s) :=
  moves fun hs => by
    have hl : ∀ bs t, Reached a t → Reached a (each bs loseBuffer t) := fun bs t ht =>
      reached_each bs (fun b u hu => by simp [hu]) ht
    unfold losePack
    dsimp only
    split <;> simp [hl, hs]

/-! The drive events. -/

@[simp] theorem reached_comingReady (d : DriveNo) : Reached a (comingReady d s) = Reached a s := by simp [comingReady]

@[simp] theorem reached_seekCheck (d : DriveNo) :
    Reached a (seekCheck d s) = (Reached a s ∨ gains a (seekCheck d) s) :=
  moves fun hs => by unfold seekCheck; dsimp only; (repeat' split) <;> simp [hs]

@[simp] theorem reached_seekOutcome (d : DriveNo) (good : Bool) :
    Reached a (seekOutcome d good s) = (Reached a s ∨ gains a (seekOutcome d good) s) :=
  moves fun hs => by unfold seekOutcome; (repeat' split) <;> simp [hs]

@[simp] theorem reached_indexEvent (d : DriveNo) :
    Reached a (indexEvent d s) = (Reached a s ∨ gains a (indexEvent d) s) :=
  moves fun hs => by unfold indexEvent; dsimp only; (repeat' split) <;> simp [hs]

@[simp] theorem reached_sectorEvent (d : DriveNo) :
    Reached a (sectorEvent d s) = (Reached a s ∨ gains a (sectorEvent d) s) :=
  moves fun hs => by unfold sectorEvent; dsimp only; (repeat' split) <;> simp [hs]

@[simp] theorem reached_faultOnPass (d : DriveNo) :
    Reached a (faultOnPass d s) = (Reached a s ∨ gains a (faultOnPass d) s) :=
  moves fun hs => by unfold faultOnPass; (repeat' split) <;> simp [hs]

/-! The link frames. -/

@[simp] theorem reached_joinCtxWait (l : LinkNo) (notify : Bool) :
    Reached a (joinCtxWait l notify s) = Reached a s := by
  unfold joinCtxWait
  split <;> simp

/-- The pre-step entries leave the Buffer Store alone (R25). -/
@[simp] theorem reached_runPre (l : LinkNo) (d : DriveNo) (es : List Entry) (i : Nat) (r : PreResult) :
    Reached a (runPre l d es i r).state = Reached a r.state := by
  induction es generalizing i r with
  | nil => rfl
  | cons e es ih =>
    cases e with
    | seek | read | write | flush | sense => exact ih _ _
    | reserve wait =>
      unfold runPre
      dsimp only
      split <;> simp [ih]
    | release =>
      unfold runPre
      dsimp only
      split <;> simp [ih]

@[simp] theorem reached_decideChain (l : LinkNo) (d : DriveNo) (tag : Byte) (notify : Bool) (es : List Entry) :
    Reached a (decideChain l d tag notify es s) = Reached a s := by
  unfold decideChain
  dsimp only
  (repeat' split) <;> simp

@[simp] theorem reached_acceptance (l : LinkNo) (unit : BitVec 4) (tag : Byte) (notify : Bool) (count : Byte)
    (body : List Byte) :
    Reached a (acceptance l unit tag notify count body s) = Reached a s := by
  unfold acceptance
  dsimp only
  (repeat' split) <;> simp

@[simp] theorem reached_haltCtx (c : CtxNo) : Reached a (haltCtx c s) = (Reached a s ∨ gains a (haltCtx c) s) :=
  moves fun hs => by
    have he : ∀ x : Context, Reached a (endChain c .halted none [] (detachArm x.drive) s) := fun x =>
      reached_endChain _ _ _ _ (fun t ht => by simp [ht]) hs
    unfold haltCtx
    (repeat' split) <;> simp [he, hs]

@[simp] theorem reached_resetCtx (c : CtxNo) : Reached a (resetCtx c s) = (Reached a s ∨ gains a (resetCtx c) s) :=
  moves fun hs => by unfold resetCtx; split <;> simp [hs]

@[simp] theorem reached_resetLink (l : LinkNo) (enters : LinkState) :
    Reached a (resetLink l enters s) = (Reached a s ∨ gains a (resetLink l enters) s) :=
  moves fun hs => by
    unfold resetLink
    rw [reached_later]
    exact reached_each _ (fun c t ht => by simp [ht]) (by simp [hs])

@[simp] theorem reached_deliveryEnds (l : LinkNo) (c : CtxNo) (x : Context) :
    Reached a (deliveryEnds l c x s) = Reached a s := by
  unfold deliveryEnds
  split <;> simp

/-! Management operations (chapter 11). -/

@[simp] theorem reached_setCursor (l : LinkNo) (k : Option Cursor) :
    Reached a (setCursor l k s) = Reached a s := by simp [setCursor]

@[simp] theorem reached_writeRow (target : LinkNo) (row : Vector Bool 8) :
    Reached a (writeRow target row s) = Reached a s := by
  unfold writeRow
  exact (reached_each_same a _ (fun d t => by split <;> simp) _).trans (untouched rfl rfl)

@[simp] theorem reached_writePolicy (d : DriveNo) (p : Policy) :
    Reached a (writePolicy d p s) = (Reached a s ∨ gains a (writePolicy d p) s) :=
  moves fun hs => by unfold writePolicy; dsimp only; (repeat' split) <;> simp [hs]

@[simp] theorem reached_beginMap (d : DriveNo) : Reached a (beginMap d s) = (Reached a s ∨ gains a (beginMap d) s) :=
  moves fun hs => by
    have he : ∀ bs t, Reached a t → Reached a (each bs emptyBuffer t) := fun bs t ht =>
      reached_each bs (fun b u hu => by simp [hu]) ht
    unfold beginMap
    dsimp only
    split <;> simp [he, hs]

@[simp] theorem reached_commitMap (d : DriveNo) : Reached a (commitMap d s) = Reached a s := by simp [commitMap]

@[simp] theorem reached_discard (b : BufNo) : Reached a (discard b s) = (Reached a s ∨ gains a (discard b) s) :=
  moves fun hs => by unfold discard; dsimp only; (repeat' split) <;> simp [hs]

/-! The resets (R199). -/

@[simp] theorem reached_resetPort (l : LinkNo) : Reached a (resetPort l s) = Reached a s := by
  unfold resetPort
  split <;> simp

@[simp] theorem reached_dropRelocation (d : DriveNo) :
    Reached a (dropRelocation d s) = (Reached a s ∨ gains a (dropRelocation d) s) :=
  moves fun hs => by unfold dropRelocation; (repeat' split) <;> simp [hs]

@[simp] theorem reached_sparesQuietly (d : DriveNo) : Reached a (sparesQuietly d s) = Reached a s := untouched rfl rfl

@[simp] theorem reached_resetArm (d : DriveNo) : Reached a (resetArm d s) = Reached a s := by
  unfold resetArm
  (repeat' split) <;> exact untouched rfl rfl

@[simp] theorem reached_policyQuietly (d : DriveNo) : Reached a (policyQuietly d s) = Reached a s := by
  unfold policyQuietly
  (repeat' split) <;> exact untouched rfl rfl

@[simp] theorem reached_resetBuffer (b : BufNo) :
    Reached a (resetBuffer b s) = (Reached a s ∨ gains a (resetBuffer b) s) :=
  moves fun hs => by unfold resetBuffer; dsimp only; (repeat' split) <;> simp [hs]

@[simp] theorem reached_resetController : Reached a (resetController s) = (Reached a s ∨ gains a resetController s) :=
  moves fun hs => by
    unfold resetController
    extract_lets s1 s2 s3 s4 path s5 s6 s7 s8
    have h1 : Reached a s1 := reached_each _ (fun l t ht => by simp [ht]) hs
    clear_value s1
    have h2 : Reached a s2 := .rests (s := s1) rfl rfl h1
    have h3 : Reached a s3 := reached_each _ (fun d t ht => by simp [ht]) h2
    have h4 : Reached a s4 := reached_each _ (fun d t ht => by simp [ht]) h3
    clear_value s4
    have h5 : Reached a s5 := .rests (s := s4) rfl rfl h4
    have h6 : Reached a s6 := reached_each _ (fun d t ht => by simp [ht]) h5
    have h7 : Reached a s7 := reached_each _ (fun b t ht => by simp [ht]) h6
    have h8 : Reached a s8 := by simp [s8, h7]
    exact reached_each _ (fun d t ht => by simp [ht]) h8

@[simp] theorem reached_turnSwitches (turned : Option (Vector Byte 8)) :
    Reached a (turnSwitches turned s) = Reached a s := by
  unfold turnSwitches
  split <;> exact untouched rfl rfl

@[simp] theorem reached_writeLevels (l target : LinkNo) (levels : Vector (Fin 16) 13) :
    Reached a (writeLevels l target levels s) = Reached a s := by
  unfold writeLevels
  dsimp only
  split <;> simp

@[simp] theorem reached_runTask (k : Task) : Reached a (runTask k s) = (Reached a s ∨ gains a (runTask k) s) :=
  moves fun hs => by cases k <;> simp [runTask, hs]

end

end Sys2Proof.Machine.TrackBuffers
end

section
namespace Sys2Proof.Machine.TrackBuffers
open Sys2Proof.Machine.Laws

/-! SUPPORT. Every command is a run of moves of the Buffer Store, and so is a step. -/

/-- The state that a command answers is reached. -/
def Leads (a : State) (o : Host.Outcome State Fault Refusal) : Prop := ∀ t, o = .next t → Reached a t

section
variable {a s : State}

/-- What is left of internal work does not concern the Buffer Store (log 3). -/
theorem reached_set_work (w : List Task) (hs : Reached a s) : Reached a { s with work := w } :=
  .rests (s := s) rfl rfl hs

theorem reached_settle (hs : Reached a s) : Reached a (settle s) :=
  settle_keeps (P := Reached a) (fun _ w hu => reached_set_work w hu) (fun k u hu => by simp [hu]) s hs

/-- A command is a run of moves where its effect is one. -/
theorem take_leads {f : State → State} (hf : ∀ u, Reached a u → Reached a (f u)) (hs : Reached a s) :
    Leads a (take s f) :=
  fun _ h => take_keeps (P := Reached a) (fun _ w hu => reached_set_work w hu) (fun k u hu => by simp [hu]) hf hs h

/-- A management operation is a run of moves where its effects are one (R193). -/
theorem manage_leads {l : LinkNo} {tag code : Byte} {needsFull lengthOk : Bool} {verdict : State → Verdict}
    (hv : ∀ u t, Reached a t → Reached a ((verdict u).early t)) (hs : Reached a s) :
    Leads a (take s (manage l tag code needsFull lengthOk verdict)) := by
  have hc : ∀ u t, Reached a t → Reached a ((checkedVerdict u l needsFull lengthOk verdict).early t) := by
    intro u t ht
    unfold checkedVerdict
    (repeat' split)
    · exact ht
    · exact hv u t ht
    · exact ht
  refine take_leads (fun u hu => ?_) hs
  unfold manage
  dsimp only
  split
  · exact hu
  · simpa using hc _ _ (by simp [hu])
  · simp [hu]
  · simp [hu]

theorem driveVerdict_reached {operand : List Byte} {decide : DriveNo → Verdict}
    (h : ∀ d, Reached a ((decide d).early s)) (hs : Reached a s) :
    Reached a ((driveVerdict operand decide).early s) := by
  unfold driveVerdict
  split
  · exact h _
  · exact hs

theorem trackVerdict_reached {operand : List Byte} {decide : DriveNo → HomeTrack → Verdict}
    (h : ∀ d home, Reached a ((decide d home).early s)) (hs : Reached a s) :
    Reached a ((trackVerdict operand decide).early s) := by
  unfold trackVerdict
  (repeat' split)
  · exact h _ _
  · exact hs
  · exact hs

theorem bufferVerdict_reached {operand : List Byte} {decide : BufNo → Verdict}
    (h : ∀ b, Reached a ((decide b).early s)) (hs : Reached a s) :
    Reached a ((bufferVerdict operand decide).early s) := by
  unfold bufferVerdict
  split
  · exact h _
  · exact hs

/-- Every command is a run of moves. -/
theorem exec_leads (c : Instr) (hs : Reached a s) : Leads a (exec c s) := by
  cases c with
  | commandFrame l unit tag notify count body =>
    change Leads a (execCommandFrame l unit tag notify count body s)
    exact take_leads (fun u hu => by split <;> simp [hu]) hs
  | dataFrame l tag sector data =>
    change Leads a (execDataFrame l tag sector data s)
    exact take_leads (fun u hu => by dsimp only; (repeat' split) <;> simp [hu]) hs
  | accept l =>
    change Leads a (execAccept l s)
    exact take_leads (fun u hu => by dsimp only; (repeat' split) <;> simp [hu]) hs
  | defer l => exact take_leads (fun u hu => by simp [hu]) hs
  | resume l =>
    change Leads a (execResume l s)
    exact take_leads (fun u hu => by split <;> simp [hu]) hs
  | halt l tag =>
    change Leads a (execHalt l tag s)
    exact take_leads (fun u hu => by dsimp only; (repeat' split) <;> simp [hu]) hs
  | linkReset l =>
    change Leads a (execLinkReset l s)
    exact take_leads (fun u hu => by split <;> simp [hu]) hs
  | linkDown l =>
    change Leads a (execLinkDown l s)
    exact take_leads (s := setLine l false s) (fun u hu => by split <;> simp [hu]) (.rests (s := s) rfl rfl hs)
  | linkUp l =>
    change Leads a (execLinkUp l s)
    exact take_leads (s := setLine l true s) (fun u hu => by split <;> simp [hu]) (.rests (s := s) rfl rfl hs)
  | frameCheckFailure l frame => exact take_leads (fun _ hu => hu) hs
  | manageInvalid l tag why => exact manage_leads (fun _ _ ht => ht) hs
  | attach l tag operand turned =>
    refine manage_leads (s := turnSwitches turned s) (fun u t ht => ?_) (by simp [hs])
    unfold attachVerdict
    (repeat' split) <;> exact .rests (s := t) rfl rfl ht
  | statusRead l tag operand => exact manage_leads (fun u t ht => by split <;> exact ht) hs
  | mapRead l tag operand =>
    exact manage_leads
      (fun u t ht => by unfold mapReadVerdict; dsimp only; (repeat' split) <;> exact .rests (s := t) rfl rfl ht) hs
  | suspectRead l tag operand =>
    exact manage_leads
      (fun u t ht => by unfold suspectReadVerdict; dsimp only; (repeat' split) <;> exact .rests (s := t) rfl rfl ht) hs
  | bufferRead l tag operand => exact manage_leads (fun _ _ ht => ht) hs
  | captureRead l tag operand => exact manage_leads (fun u t ht => .rests (s := t) rfl rfl ht) hs
  | priorityWrite l tag operand =>
    exact manage_leads (fun u t ht => by (repeat' split) <;> simp [accept, refuse, ht]) hs
  | pathWrite l tag operand => exact manage_leads (fun u t ht => by split <;> simp [refuse, ht]) hs
  | policyWrite l tag operand => exact manage_leads (fun u t ht => by split <;> simp [accept, refuse, ht]) hs
  | mapBegin l tag operand =>
    exact manage_leads
      (fun u t ht => driveVerdict_reached (fun d => by (repeat' split) <;> simp [accept, refuse, ht]) ht) hs
  | mapLoad l tag operand =>
    exact manage_leads (fun u t ht => by (repeat' split) <;> simp [accept, refuse, ht]) hs
  | mapCommit l tag operand =>
    exact manage_leads (fun u t ht => driveVerdict_reached (fun d => by split <;> simp [accept, refuse, ht]) ht) hs
  | relocate l tag operand =>
    exact manage_leads
      (fun u t ht => trackVerdict_reached (fun d h => by (repeat' split) <;> simp [accept, refuse, ht]) ht) hs
  | suspectPlace l tag operand =>
    refine manage_leads (fun u t ht => trackVerdict_reached (fun d h => ?_) ht) hs
    unfold placeVerdict
    (repeat' split) <;> simp [accept, refuse, ht]
  | suspectRemove l tag operand =>
    exact manage_leads (fun u t ht => trackVerdict_reached (fun d h => by split <;> simp [accept, refuse, ht]) ht) hs
  | fenceForce l tag operand =>
    exact manage_leads (fun u t ht => driveVerdict_reached (fun d => by simp [accept, ht]) ht) hs
  | fenceClear l tag operand =>
    exact manage_leads
      (fun u t ht => driveVerdict_reached (fun d => by (repeat' split) <;> simp [accept, refuse, ht]) ht) hs
  | fencePurge l tag operand =>
    exact manage_leads (fun u t ht => driveVerdict_reached (fun d => by split <;> simp [accept, refuse, ht]) ht) hs
  | forceRelease l tag operand =>
    exact manage_leads (fun u t ht => by (repeat' split) <;> simp [accept, refuse, ht]) hs
  | bufferDiscard l tag operand =>
    exact manage_leads (fun u t ht => bufferVerdict_reached (fun b => by split <;> simp [accept, refuse, ht]) ht) hs
  | parityForce l tag operand =>
    exact manage_leads (fun u t ht => bufferVerdict_reached (fun b => by simp [accept, ht]) ht) hs
  | controllerReset l tag operand => exact manage_leads (fun u t ht => by simp [accept, ht]) hs
  | offerTimeout l => exact take_leads (fun u hu => by simp [hu]) hs
  | dataTimeout l =>
    change Leads a (execDataTimeout l s)
    exact take_leads (fun u hu => by (repeat' split) <;> simp [hu]) hs
  | seekTimeout d => exact take_leads (fun u hu => by simp [hu]) hs
  | recalibrateTimeout d =>
    change Leads a (execRecalibrateTimeout d s)
    exact take_leads (fun u hu => by split <;> simp [hu]) hs
  | ready d =>
    change Leads a (execReady d s)
    exact take_leads (fun u hu => by split <;> simp [hu]) hs
  | notReady d =>
    change Leads a (execNotReady d s)
    exact take_leads (fun u hu => by split <;> simp [hu]) hs
  | seekDone d good => exact take_leads (fun u hu => by simp [hu]) hs
  | recalDone d good =>
    change Leads a (execRecalDone d good s)
    exact take_leads (fun u hu => by (repeat' split) <;> simp [hu]) hs
  | index d => exact take_leads (fun u hu => by simp [hu]) hs
  | sector d => exact take_leads (fun u hu => by simp [hu]) hs
  | sectorResult d sec r => exact take_leads (fun u hu => by simp [hu]) hs
  | conditionRaised d c =>
    change Leads a (execConditionRaised d c s)
    exact take_leads (fun u hu => by dsimp only; (repeat' split) <;> simp [hu]) hs
  | conditionCleared d c =>
    change Leads a (execConditionCleared d c s)
    exact take_leads (fun u hu => by split <;> simp [hu]) hs
  | settleEnd d =>
    change Leads a (execSettleEnd d s)
    exact take_leads (fun u hu => by (repeat' split) <;> simp [hu]) hs
  | passEnd d e =>
    change Leads a (execPassEnd d e s)
    exact take_leads (fun u hu => by (repeat' split) <;> simp [hu]) hs
  | deliveryFrame l =>
    change Leads a (execDeliveryFrame l s)
    exact take_leads (fun u hu => by dsimp only; (repeat' split) <;> simp [hu]) hs
  | powerOnClear =>
    rintro _ ⟨⟩
    exact .clears rfl rfl
  | powerOnClearAsserted =>
    rintro _ ⟨⟩
    exact .rests (s := s) rfl rfl hs

/-- A step is a run of moves: a command, or the work that an idle step finds left over. -/
theorem step_reached {t : State} (h : step s = .next t) : Reached s t := by
  unfold step at h
  split at h
  · cases h
    exact reached_settle .start
  · next c rest _ => exact exec_leads (s := { s with pending := rest }) c (.rests (s := s) rfl rfl .start) t h

end

/-- Settles O8: a step is a run of moves of the Buffer Store, and each move keeps each of the three laws by itself. -/
theorem bufferLawsKept : Obligations.BufferLawsKept :=
  ⟨fun _ _ hs h => (step_reached h).storeLaw hs, fun _ _ hs h => (step_reached h).lruLaw hs,
    fun _ _ hs h => (step_reached h).bufferLaw hs⟩

end Sys2Proof.Machine.TrackBuffers
end

section
namespace Sys2Proof.Machine.TrackBuffers
open Sys2Proof.Machine.DriveString Sys2Proof.Machine.ChainControl

/-! SUPPORT. What BUFFER-READ and CAPTURE-READ answer (R135, R139). -/

/-- A management frame on an IDLE link whose operation needs no FULL authority: the answer, the effects that follow it,
and the choice (R193, R54). -/
theorem take_reads {l : LinkNo} {tag code : Byte} {verdict : State → Verdict} {answer : Answer} {early : State → State}
    {s u : State} (h : atIdle l s) (hv : verdict (floorZero l s) = ⟨answer, early, []⟩)
    (hu : early (answered l code answer s) = u) (hw : u.work = []) :
    take s (manage l tag code false true verdict) = .next (choose l u) := by
  obtain ⟨hs, hp⟩ := h
  have hm : manage l tag code false true verdict s = u.later [.choose l] := by
    have hc : checkedVerdict (floorZero l s) l false true verdict = ⟨answer, early, []⟩ := hv
    subst hu
    simp only [manage, hp]
    rw [show setFloor l 0 s = floorZero l s from rfl, hc]
    rfl
  exact take_single hs hm hw rfl (choose_work hw)

/-- Settles O33: each operation reads what the link's floor does not touch. -/
theorem bufferAndCaptureRead : Obligations.BufferAndCaptureRead := by
  intro l tag s h
  obtain ⟨⟨-, hw⟩, -⟩ := id h
  constructor
  · change execBufferRead l tag [] s = _
    exact take_reads h rfl rfl hw
  · change execCaptureRead l tag [] s = _
    exact take_reads h rfl rfl hw

end Sys2Proof.Machine.TrackBuffers
end

section
namespace Sys2Proof.Machine.TrackBuffers
open Sys2Proof.Machine.Laws Sys2Proof.Machine.DriveString Sys2Proof.Machine.ChainControl
open Sys2Proof.Machine.PresentationControl Sys2Proof.Machine.StringDataPath

/-! SUPPORT. A staging Data Frame that is stored, and the last one (R30, R63, R126). -/

/-- A Data Frame is stored dirty under its link's name, and the forced parity is used up (R126, R136). -/
def storesFrame (l : LinkNo) (b : BufNo) (y : SectorNo) (data : List Byte) (s : State) : State :=
  noteStored b y (s.modBuffer b fun r =>
    { r with cells := putCell y ⟨data, true, r.parityForce⟩ r.cells, parityForce := false, lastWriter := some l })

theorem byteOf_sector (y : SectorNo) : (byteOf y.val).toNat = y.val := by
  simp only [byteOf, BitVec.toNat_ofNat]
  omega

theorem flushWaiting_none {d : DriveNo} {s : State} (h : noFlush d s) : flushWaiting s d = false := by
  have hn : (ctxsWhere s fun x => x.drive == d && x.state == .waitStore .flush) = [] :=
    ctxsWhere_none fun c x hx => by simpa using h c x hx
  simp [flushWaiting, hn]

/-- A chain that is not in the flush wait takes the place of a context. -/
theorem noFlush_setCtx {c : CtxNo} {d : DriveNo} {v : Context} {s : State} (h : noFlush d s)
    (hv : v.drive = d → v.state ≠ .waitStore .flush) : noFlush d (s.setCtx c (some v)) := by
  intro k x hx
  rw [ctx_setCtx] at hx
  split at hx
  · obtain rfl : v = x := by simpa using hx
    exact hv
  · exact h k x hx

/-- Where no chain of the drive is in the flush wait, a store gives the buffer no item (R126, R133). -/
theorem storeFrame_noFlush {l : LinkNo} {b : BufNo} {y : SectorNo} {data : List Byte} {d : DriveNo} {h : HomeTrack}
    {s : State} (ha : (s.buffer b).assigned = some (d, h)) (hf : noFlush d s) :
    storeFrame l b y data s = storesFrame l b y data s := by
  have ht : noteStored b y ((storeCell b y data true s).modBuffer b fun r => { r with lastWriter := some l }) =
      storesFrame l b y data s := by
    simp only [storeCell, modBuffer_modBuffer]
    rfl
  have hq : flushWaiting (storesFrame l b y data s) d = false := flushWaiting_none hf
  simp only [storeFrame, ht, ha, hq, Bool.false_eq_true, false_and, and_false, if_false]

section
variable {l : LinkNo} {c : CtxNo} {x : Context} {b : BufNo} {y : SectorNo} {rest : List SectorNo} {d : DriveNo}
  {h : HomeTrack} {data : List Byte} {s : State}

/-- The Data Frame that is expected next is stored as its context expects the sectors after it. -/
theorem storeFrame_expected (hx : s.ctx c = some x) (ha : (s.buffer b).assigned = some (d, h)) (hf : noFlush d s) :
    storeFrame l b y data (s.modCtx c fun k => { k with expected := rest }) =
      storesFrame l b y data (s.setCtx c (some { x with expected := rest })) := by
  rw [modCtx_some hx]
  exact storeFrame_noFlush ha (noFlush_setCtx hf (hf c x hx))

/-- The context of a chain to which the last sector has been sent. -/
def gotAll (x : Context) : Context := { x with expected := [], state := .waitStore .goingOn }

theorem modCtx_storesFrame :
    (storesFrame l b y data (s.setCtx c (some { x with expected := [] }))).modCtx c
      (fun k => { k with state := .waitStore .goingOn }) = storesFrame l b y data (s.setCtx c (some (gotAll x))) := by
  have hc : (storesFrame l b y data (s.setCtx c (some { x with expected := [] }))).ctx c =
      some { x with expected := [] } := (ctx_setCtx c c _ s).trans (if_pos rfl)
  rw [modCtx_some hc]
  exact congrArg (storesFrame l b y data) (setCtx_setCtx c _ _ s)

/-- With the last sector stored the link makes its choice and the entry walk goes on (R30). -/
theorem advance_storesFrame :
    advance c (goIdle l ((storesFrame l b y data (s.setCtx c (some { x with expected := [] }))).modCtx c
      fun k => { k with state := .waitStore .goingOn })) =
      ((goIdle l (storesFrame l b y data (s.setCtx c (some (gotAll x))))).setCtx c
        (some { gotAll x with cur := x.cur + 1 })).later [.walk c] := by
  have hc : (storesFrame l b y data (s.setCtx c (some (gotAll x)))).ctx c = some (gotAll x) :=
    (ctx_setCtx c c _ s).trans (if_pos rfl)
  rw [modCtx_storesFrame, advance, modCtx_goIdle _ hc]
  rfl

/-- What the Data Frame that is expected next does, and whether the staging ends with it. -/
theorem exec_dataFrame (hs : calm s) (hp : (s.port l).state = .connected c .toController) (hx : s.ctx c = some x)
    (hb : x.buffer = some b) (he : x.expected = y :: rest) (ha : (s.buffer b).assigned = some (d, h))
    (hf : noFlush d s) :
    exec (.dataFrame l x.tag (byteOf y.val) data) s = .next (settle
      (if rest.isEmpty then
        advance c (goIdle l ((storesFrame l b y data (s.setCtx c (some { x with expected := rest }))).modCtx c
          fun k => { k with state := .waitStore .goingOn }))
      else storesFrame l b y data (s.setCtx c (some { x with expected := rest })))) := by
  change execDataFrame l x.tag (byteOf y.val) data s = _
  refine take_runs hs ?_
  rw [← storeFrame_expected hx ha hf]
  simp only [hp, hx, he, hb, byteOf_sector, and_self, if_true]

end

/-- Settles O20: a frame before the last only stores; the last lets the link and the chain go on. -/
theorem dataFrameStored : Obligations.DataFrameStored := by
  intro l c x b y rest d h data s hs hp hx hb he ha hf
  have hexec := exec_dataFrame (data := data) hs hp hx hb he ha hf
  refine ⟨fun hr => ?_, fun hr => ?_, fun tag sector hne => ?_⟩
  · have hn : ¬rest.isEmpty = true := by simpa using hr
    rw [if_neg hn, settle_calm (storesFrame l b y data (s.setCtx c _)) hs.2] at hexec
    exact hexec
  · subst hr
    rw [if_pos List.isEmpty_nil, advance_storesFrame] at hexec
    exact hexec
  · have hno : ¬(tag = x.tag ∧ sector.toNat = y.val) := by tauto
    change execDataFrame l tag sector data s = _
    refine take_effect hs ?_ hs.2
    simp only [hp, hx, he, hb, if_neg hno]

end Sys2Proof.Machine.TrackBuffers
end

section
namespace Sys2Proof.Machine.TrackBuffers
open Sys2Proof.Machine.Laws Sys2Proof.Machine.DriveString Sys2Proof.Machine.ChainControl
open Sys2Proof.Machine.PresentationControl Sys2Proof.Machine.ReservationControl Sys2Proof.Machine.StringDataPath

/-! SUPPORT. A buffer discarded, and what goes on when it is EMPTY and its dirty sectors are lost (R123, R133, R136 to
R138). -/

theorem readBuf_byteOf (b : BufNo) : readBuf (byteOf b.val) = some b := by
  have hb : (byteOf b.val).toNat = b.val := by
    simp only [byteOf, BitVec.toNat_ofNat]
    omega
  simp [readBuf, hb]

/-! The flush test (R133). -/

section
variable {b : BufNo} {c : CtxNo} {d : DriveNo} {h : HomeTrack} {x : Context} {s : State}

theorem filter_allCtxs {p : CtxNo → Bool} (hc : p c = true) (hu : ∀ k, p k = true → k = c) :
    allCtxs.filter p = [c] := by
  have hn : (allCtxs.filter p).Nodup := List.Nodup.filter _ (by decide)
  refine List.perm_singleton.mp ((List.perm_ext_iff_of_nodup hn (List.nodup_singleton c)).mpr fun k => ?_)
  simp only [List.mem_filter, List.mem_singleton, mem_allCtxs k, true_and]
  exact ⟨hu k, fun hk => hk ▸ hc⟩

/-- A test that one context meets picks that one. -/
theorem ctxsWhere_single {p : Context → Bool} (hx : s.ctx c = some x) (hp : p x = true)
    (hu : ∀ k y, s.ctx k = some y → p y = true → k = c) : ctxsWhere s p = [c] := by
  refine congrArg (sortBy _) (filter_allCtxs (by simpa only [hx] using hp) fun k => ?_)
  split
  · next y hy => exact hu k y hy
  · simp

/-- A chain whose flush wait is over goes on with the entry after its FLUSH (R133). -/
def flushed (x : Context) : Context := { x with state := .waitStore .goingOn, cur := x.cur + 1 }

/-- The flush wait of a drive's one waiting chain completes (R133). -/
theorem flushTest_completes (hx : s.ctx c = some x) (hd : x.drive = d) (hw : x.state = .waitStore .flush)
    (hu : ∀ k y, s.ctx k = some y → y.drive = d → y.state = .waitStore .flush → k = c)
    (hb : ∀ n, (s.buffer n).ofDrive d = true →
      (s.buffer n).state ≠ .dirty ∧ (s.buffer n).state ≠ .destaging) :
    flushTest d s = (s.setCtx c (some (flushed x))).later [.walk c] := by
  have hnone : (allBufs.any fun n => (s.buffer n).ofDrive d &&
      ((s.buffer n).state == .dirty || (s.buffer n).state == .destaging)) = false :=
    List.any_eq_false.mpr fun n _ => by
      simp only [Bool.and_eq_true, Bool.or_eq_true, beq_iff_eq]
      exact fun ⟨ho, hs⟩ => hs.elim (hb n ho).1 (hb n ho).2
  have hc : (ctxsWhere s fun x => x.drive == d && x.state == .waitStore .flush) = [c] :=
    ctxsWhere_single hx (by simp [hd, hw]) fun k y hy hp => by
      obtain ⟨hyd, hyw⟩ : y.drive = d ∧ y.state = .waitStore .flush := by simpa using hp
      exact hu k y hy hyd hyw
  simp only [flushTest, hnone, hc, each_cons, modCtx_some hx, Bool.false_eq_true, if_false]
  rfl

theorem emptyOf_noFlush (hf : noFlush d s) : emptyOf d b s = emptyBuffer b s :=
  flushTest_none (s := emptyBuffer b s) hf

/-- The drive's one waiting chain goes on as the last DIRTY buffer of the drive is emptied (R119, R133). -/
theorem emptyOf_completes (hx : s.ctx c = some x) (hd : x.drive = d) (hw : x.state = .waitStore .flush)
    (hu : ∀ k y, s.ctx k = some y → y.drive = d → y.state = .waitStore .flush → k = c)
    (hb : ∀ n, n ≠ b → (s.buffer n).ofDrive d = true →
      (s.buffer n).state ≠ .dirty ∧ (s.buffer n).state ≠ .destaging) :
    emptyOf d b s = ((emptyBuffer b s).setCtx c (some (flushed x))).later [.walk c] := by
  refine flushTest_completes (s := emptyBuffer b s) hx hd hw hu fun n => ?_
  rw [buffer_emptyBuffer]
  split
  · simp [Buffer.ofDrive, Buffer.powerOn]
  · next hn => exact hb n (Ne.symm hn)

/-! The service of the Buffer Wait List (R123). -/

/-- The one waiting requester is served while a buffer is available. -/
theorem serve_single {w : Waiter} (hw : s.bufWait = [w]) (hb : available s b = true) :
    serve s = serveWaiter w { s with bufWait := [] } := by
  have ha : allBufs.any (available s) = true := List.any_eq_true.mpr ⟨b, mem_allBufs b, hb⟩
  simp only [serve, hw, List.length_singleton, serveTimes, ha, if_true, List.filter_nil, each_cons]
  rfl

theorem reclaimCheck_serve_none (hw : s.bufWait = []) : reclaimCheck (serve s) = s := by
  rw [serve_none hw, reclaimCheck_none hw]

/-- A requester that is given a place on its first request is served alike when it has waited. -/
theorem serveWaiter_of_newPlace {w : Waiter} (hb : newPlace s = some b) : serveWaiter w s = request w s := by
  unfold serveWaiter request allocate
  cases holderOf s w.drive w.home with
  | some n => rfl
  | none => simp only [hb, Option.getD_some]

/-- A chain asks for a buffer of a track that none holds, where the lowest-numbered one that it can have has just been
emptied (R122). -/
theorem request_emptied {e : DriveNo} {k : HomeTrack} (hx : s.ctx c = some x)
    (hn : ∀ n, (s.buffer n).assigned ≠ some (e, k)) (hl : ∀ n, n < b → (s.buffer n).assigned ≠ none) :
    newPlace (emptyBuffer b s) = some b ∧ request ⟨.context c, e, k⟩ (emptyBuffer b s) =
      ((assigns b e k s).setCtx c (some { x with buffer := some b, state := .waitStore .goingOn })).later
        [.assigned c] := by
  have hempty : ((emptyBuffer b s).buffer b).assigned = none := by simp [Buffer.powerOn]
  have hother : ∀ n, ((emptyBuffer b s).buffer n).assigned ≠ some (e, k) := fun n => by
    rw [buffer_emptyBuffer]
    split
    · simp [Buffer.powerOn]
    · exact hn n
  have hlower : ∀ n, n < b → ((emptyBuffer b s).buffer n).assigned ≠ none := fun n hnb => by
    rw [buffer_emptyBuffer, if_neg hnb.ne']
    exact hl n hnb
  refine ⟨newPlace_empty hempty hlower, ?_⟩
  rw [request_empty hother hempty hlower, modCtx_some (s := emptyBuffer b s) hx]
  simp only [assigns, emptyBuffer, State.modBuffer, State.setCtx, change_change]

theorem available_emptied : available (emptyBuffer b s) b = true := by
  have he : ((emptyBuffer b s).buffer b).state = .empty := (state_empty_iff _).mpr (by simp [Buffer.powerOn])
  simp only [available, he, beq_self_eq_true, Bool.true_or]

/-- The one waiting chain is assigned the buffer that has just been emptied (R122, R123). -/
theorem serve_emptied {e : DriveNo} {k : HomeTrack} (hw : s.bufWait = [⟨.context c, e, k⟩]) (hx : s.ctx c = some x)
    (hn : ∀ n, (s.buffer n).assigned ≠ some (e, k)) (hl : ∀ n, n < b → (s.buffer n).assigned ≠ none) :
    serve (emptyBuffer b s) = (({ assigns b e k s with bufWait := [] } : State).setCtx c
      (some { x with buffer := some b, state := .waitStore .goingOn })).later [.assigned c] := by
  obtain ⟨hplace, hrequest⟩ := request_emptied (s := { s with bufWait := [] }) hx hn hl
  rw [serve_single (s := emptyBuffer b s) hw available_emptied]
  exact (serveWaiter_of_newPlace hplace).trans hrequest

/-! The discard (R137, R138). -/

/-- BUFFER-DATA-LOST is raised for what a buffer holds dirty, if anything (R137). -/
def lossTold (b : BufNo) (s : State) : State :=
  if (s.buffer b).dirty.isEmpty then s else dataLost b (s.buffer b).dirty s

theorem behind_lossTold (b : BufNo) (s : State) : Laws.behind (lossTold b s) = Laws.behind s := by
  unfold lossTold
  split <;> simp

theorem lossTold_keeps (b : BufNo) (s : State) :
    (lossTold b s).contexts = s.contexts ∧ (lossTold b s).buffers = s.buffers ∧
    (lossTold b s).bufWait = s.bufWait ∧ (lossTold b s).work = s.work := by
  have hb := behind_lossTold b s
  simp only [Laws.behind, Prod.mk.injEq] at hb
  tauto

theorem discard_empty (ha : (s.buffer b).assigned = none) : discard b s = s := by
  simp [discard, ha]

theorem discard_held (ha : (s.buffer b).assigned = some (d, h)) (hd : (s.buffer b).destage = .none) :
    discard b s = serve (emptyOf d b (lossTold b s)) := by
  simp [discard, ha, hd, lossTold]

/-- The item of a QUEUED destage is withdrawn (R138). -/
theorem discard_queued (ha : (s.buffer b).assigned = some (d, h)) (hd : (s.buffer b).destage = .queued) :
    discard b s = reclaimCheck (serve (emptyOf d b (leaveQueue d (.destage b) (lossTold b s)))) := by
  simp [discard, ha, hd, lossTold]

theorem noFlush_congr {t : State} (hc : t.contexts = s.contexts) (hf : noFlush d s) : noFlush d t := by
  simpa only [noFlush, State.ctx, hc] using hf

/-- With no requester and no flush waiting a discard only empties the buffer. -/
theorem discard_quiet (ha : (s.buffer b).assigned = some (d, h)) (hd : (s.buffer b).destage = .none)
    (hw : s.bufWait = []) (hf : noFlush d s) : discard b s = emptyBuffer b (lossTold b s) := by
  obtain ⟨hcontexts, -, hwait, -⟩ := lossTold_keeps b s
  rw [discard_held ha hd, emptyOf_noFlush (noFlush_congr hcontexts hf), serve_none]
  exact hwait.trans hw

/-- The waiting chain is assigned the buffer discarded (R123). -/
theorem discard_serves {c : CtxNo} {x : Context} {e : DriveNo} {k : HomeTrack}
    (ha : (s.buffer b).assigned = some (d, h)) (hd : (s.buffer b).destage = .none) (hf : noFlush d s)
    (hw : s.bufWait = [⟨.context c, e, k⟩]) (hx : s.ctx c = some x)
    (hn : ∀ n, (s.buffer n).assigned ≠ some (e, k)) (hl : ∀ n, n < b → (s.buffer n).assigned ≠ none) :
    discard b s = (({ assigns b e k (lossTold b s) with bufWait := [] } : State).setCtx c
      (some { x with buffer := some b, state := .waitStore .goingOn })).later [.assigned c] := by
  obtain ⟨hcontexts, hbuffers, hwait, -⟩ := lossTold_keeps b s
  rw [discard_held ha hd, emptyOf_noFlush (noFlush_congr hcontexts hf)]
  refine serve_emptied (hwait.trans hw) (by rwa [State.ctx, hcontexts]) ?_ ?_
  · simpa only [State.buffer, hbuffers] using hn
  · simpa only [State.buffer, hbuffers] using hl

/-- The chain in the flush wait goes on as a buffer whose item is withdrawn leaves its drive without a DIRTY one, and
nothing waits for the buffer (R133). -/
theorem withdrawn_completes {c : CtxNo} {x : Context} (hw : s.bufWait = []) (hx : s.ctx c = some x) (hxd : x.drive = d)
    (hst : x.state = .waitStore .flush)
    (hu : ∀ k y, s.ctx k = some y → y.drive = d → y.state = .waitStore .flush → k = c)
    (hb : ∀ n, n ≠ b → (s.buffer n).ofDrive d = true →
      (s.buffer n).state ≠ .dirty ∧ (s.buffer n).state ≠ .destaging) :
    reclaimCheck (serve (emptyOf d b (leaveQueue d (.destage b) s))) =
      ((emptyBuffer b (leaveQueue d (.destage b) s)).setCtx c (some (flushed x))).later [.walk c] := by
  rw [emptyOf_completes (s := leaveQueue d (.destage b) s) hx hxd hst hu hb]
  exact reclaimCheck_serve_none hw

/-- The chain in the flush wait goes on as the buffer discarded was the last DIRTY one of its drive (R133). -/
theorem discard_completes {c : CtxNo} {x : Context} (ha : (s.buffer b).assigned = some (d, h))
    (hd : (s.buffer b).destage = .queued) (hw : s.bufWait = []) (hx : s.ctx c = some x) (hxd : x.drive = d)
    (hst : x.state = .waitStore .flush)
    (hu : ∀ k y, s.ctx k = some y → y.drive = d → y.state = .waitStore .flush → k = c)
    (hb : ∀ n, n ≠ b → (s.buffer n).ofDrive d = true →
      (s.buffer n).state ≠ .dirty ∧ (s.buffer n).state ≠ .destaging) :
    discard b s = ((emptyBuffer b (leaveQueue d (.destage b) (lossTold b s))).setCtx c (some (flushed x))).later
      [.walk c] := by
  obtain ⟨hcontexts, hbuffers, hwait, -⟩ := lossTold_keeps b s
  rw [discard_queued ha hd]
  refine withdrawn_completes (hwait.trans hw) (by rwa [State.ctx, hcontexts]) hxd hst ?_ ?_
  · simpa only [State.ctx, hcontexts] using hu
  · simpa only [State.buffer, hbuffers] using hb

end

/-! The command. -/

section
variable {l : LinkNo} {b : BufNo} {d : DriveNo} {h : HomeTrack} {tag : Byte} {s u : State}

/-- A pinned or DESTAGING buffer is not discarded. -/
theorem exec_discard_refused (hs : atFull l s) (hb : pinned s b = true ∨ (s.buffer b).state = .destaging) :
    exec (.bufferDiscard l tag [byteOf b.val]) s = .next (choose l (answered l 20#8 (.refused .state none) s)) := by
  obtain ⟨⟨⟨-, hw⟩, -⟩, -⟩ := id hs
  have hb' : pinned (floorZero l s) b = true ∨ ((floorZero l s).buffer b).state = .destaging := hb
  change execBufferDiscard l tag [byteOf b.val] s = _
  refine take_answers hs (early := id) ?_ rfl hw
  simp only [bufferVerdict, List.head?_cons, Option.bind_some, readBuf_byteOf, if_pos hb']
  rfl

/-- Any other buffer is discarded, and the link makes its choice after what that hands on. -/
theorem exec_discard (hs : atFull l s) (hp : pinned s b = false) (hd : (s.buffer b).state ≠ .destaging)
    {ts : List Task} (hu : discard b (accepted l 20#8 s) = u.later ts) :
    exec (.bufferDiscard l tag [byteOf b.val]) s = .next (settle (u.later (ts ++ [.choose l]))) := by
  have hb : ¬(pinned (floorZero l s) b = true ∨ ((floorZero l s).buffer b).state = .destaging) :=
    not_or.mpr ⟨(Bool.not_eq_true _).mpr hp, hd⟩
  change execBufferDiscard l tag [byteOf b.val] s = _
  refine take_runs hs.1.1 ?_
  rw [← later_later, ← hu]
  refine manage_accepts hs ?_
  simp only [bufferVerdict, List.head?_cons, Option.bind_some, readBuf_byteOf, if_neg hb]

/-- A discard that hands nothing on. -/
theorem exec_discard_quiet (hs : atFull l s) (hp : pinned s b = false) (hd : (s.buffer b).state ≠ .destaging)
    (hu : discard b (accepted l 20#8 s) = u) (hw : u.work = []) :
    exec (.bufferDiscard l tag [byteOf b.val]) s = .next (choose l u) := by
  rw [exec_discard hs hp hd (ts := []) (hu.trans (later_nil u).symm), List.nil_append,
    settle_single u (.choose l) hw (choose_work hw)]
  rfl

theorem not_destaging (h : (s.buffer b).destage ≠ .running) : (s.buffer b).state ≠ .destaging := by
  unfold Buffer.state
  split
  · simp
  · rw [if_neg h]
    split <;> simp

theorem lossLinks_accepted (code : Byte) (w : Option LinkNo) :
    lossLinks (accepted l code s) w d = lossLinks s w d := by
  have hport : ∀ k, ((accepted l code s).port k).state = (s.port k).state := fun k => by
    change ((floorZero l s).port k).state = _
    rw [floorZero, port_modPort]
    split
    · next hk => rw [← hk]
    · rfl
  cases w with
  | none => rfl
  | some k =>
    simp only [lossLinks, hport]
    rfl

theorem lossTold_clean (hx : (s.buffer b).dirty = []) : lossTold b s = s := by
  simp [lossTold, hx]

/-- The loss of a dirty buffer by an accepted discard (R49, R137). -/
theorem lossTold_dirty {code : Byte} (ha : (s.buffer b).assigned = some (d, h)) (hx : (s.buffer b).dirty ≠ []) :
    lossTold b (accepted l code s) = raiseOn (lossLinks s (s.buffer b).lastWriter d)
      (.bufferDataLost d h (s.buffer b).dirty) (accepted l code s) := by
  have hx' : ¬((accepted l code s).buffer b).dirty.isEmpty = true := mt List.isEmpty_iff.mp hx
  have ha' : ((accepted l code s).buffer b).assigned = some (d, h) := ha
  simp only [lossTold, if_neg hx', dataLost, ha', lossLinks_accepted]
  rfl

/-- PARITY-FORCE sets the flag (R136). -/
theorem exec_parityForce (hs : atFull l s) : exec (.parityForce l tag [byteOf b.val]) s =
    .next (choose l ((accepted l 21#8 s).modBuffer b fun r => { r with parityForce := true })) := by
  obtain ⟨⟨⟨-, hw⟩, -⟩, -⟩ := id hs
  change execParityForce l tag [byteOf b.val] s = _
  refine take_accepts hs ?_ rfl hw
  simp only [bufferVerdict, List.head?_cons, Option.bind_some, readBuf_byteOf]

end

/-- Settles O45: what waits for the buffer or for its drive's last dirty sector decides what a discard hands on. -/
theorem bufferDiscardParityForce : Obligations.BufferDiscardParityForce := by
  intro l b tag s hs
  obtain ⟨⟨⟨-, hwork⟩, -⟩, -⟩ := id hs
  obtain ⟨-, -, -, hlost⟩ := lossTold_keeps b (accepted l 20#8 s)
  refine ⟨exec_discard_refused hs, fun hp he => ?_, fun d h hp ha hd hw hf => ⟨fun hx => ?_, fun hx => ?_⟩,
    fun d h hp ha hx => ⟨fun c x e k hd hf hw hc hn hl => ?_, fun c x hd hw hc hxd hst hu hb => ?_⟩,
    exec_parityForce hs⟩
  · have hnone : (s.buffer b).assigned = none := (state_empty_iff _).mp he
    exact exec_discard_quiet hs hp (by simp [he]) (discard_empty hnone) hwork
  · have hempties := discard_quiet (s := accepted l 20#8 s) ha hd hw hf
    rw [lossTold_clean (s := accepted l 20#8 s) hx] at hempties
    exact exec_discard_quiet hs hp (not_destaging (by simp [hd])) hempties hwork
  · have hempties := discard_quiet (s := accepted l 20#8 s) ha hd hw hf
    rw [lossTold_dirty ha hx] at hempties hlost
    exact exec_discard_quiet hs hp (not_destaging (by simp [hd])) hempties (hlost.trans hwork)
  · have hserves := discard_serves (s := accepted l 20#8 s) ha hd hf hw hc hn hl
    rw [lossTold_dirty ha hx] at hserves
    exact exec_discard hs hp (not_destaging (by simp [hd])) hserves
  · have hcompletes := discard_completes (s := accepted l 20#8 s) ha hd hw hc hxd hst hu hb
    rw [lossTold_dirty ha hx] at hcompletes
    exact exec_discard hs hp (not_destaging (by simp [hd])) hcompletes

end Sys2Proof.Machine.TrackBuffers
end

section
namespace Sys2Proof.Machine.AlternateTracks
open Sys2Proof.Machine.DriveString Sys2Proof.Machine.ChainControl Sys2Proof.Machine.ReservationControl
open Sys2Proof.Machine.PresentationControl

/-! SUPPORT. What the Management Engine makes of an operation's verdict (R193). -/

section
variable {l : LinkNo} {tag code : Byte} {needsFull : Bool} {verdict : State → Verdict} {s : State}

/-- A management frame on an IDLE link of FULL authority: the answer, the effects that follow it, the choice, and what
comes after the choice (R193; log 18). -/
theorem manage_decides {answer : Answer} {early : State → State} {late : List Task} (h : atFull l s)
    (hv : verdict (floorZero l s) = ⟨answer, early, late⟩) : manage l tag code needsFull true verdict s =
      (early (answered l code answer s)).later (.choose l :: late) := by
  obtain ⟨⟨-, hp⟩, hf⟩ := h
  have hc : checkedVerdict (floorZero l s) l needsFull true verdict = ⟨answer, early, late⟩ := by
    have hf' : ((floorZero l s).auth.get l).full = true := hf
    simp [checkedVerdict, hf', hv]
  simp only [manage, hp]
  rw [show setFloor l 0 s = floorZero l s from rfl, hc]
  rfl

/-- An operation is refused, and nothing but the floor and the answer changes (R193). -/
theorem take_refuses {r : Reason} {item : Option Nat} (h : atFull l s)
    (hv : verdict (floorZero l s) = ⟨.refused r item, id, []⟩) :
    take s (manage l tag code needsFull true verdict) = .next (choose l (answered l code (.refused r item) s)) := by
  have hw : s.work = [] := atIdle_work h.1
  exact take_answers h hv rfl hw

end

/-- A frame that is taken leaves every link's cursor. -/
theorem cursor_floorZero (l k : LinkNo) (s : State) : ((floorZero l s).port k).cursor = (s.port k).cursor := by
  rw [floorZero, port_modPort]
  split
  · next hk => rw [← hk]
  · rfl

end Sys2Proof.Machine.AlternateTracks
end

section
namespace Sys2Proof.Machine.AlternateTracks
open Sys2Proof.Machine.Laws Sys2Proof.Machine.DriveString Sys2Proof.Machine.ChainControl
open Sys2Proof.Machine.StringDataPath (modTracks_modTracks modReloc_some)

/-! SUPPORT. A relocation created by RELOCATE (R154 to R157). -/

section
variable {b : BufNo} {d : DriveNo} {h : HomeTrack} {s : State}

theorem mem_allSpares (i : SpareNo) : i ∈ allSpares := by
  revert i
  decide

theorem freeSpare_of_free {t : Tracks} (hf : ∃ i, t.pool.get i = .free) : ∃ i, freeSpare t = some i := by
  obtain ⟨i, hi⟩ := hf
  exact Option.isSome_iff_exists.mp (List.find?_isSome.mpr ⟨i, mem_allSpares i, by simp [hi]⟩)

theorem suspendStaging_none (hc : ∀ c x, s.ctx c = some x → x.buffer ≠ some b) : suspendStaging b s = s := by
  have hn : (ctxsWhere s fun x => x.buffer == some b && (x.state == .staging || x.state == .connected)) = [] :=
    ctxsWhere_none fun c x hx => by simp [hc c x hx]
  simp [suspendStaging, hn]

/-- The buffer is the lowest-numbered EMPTY one, no context names it, and none holds the track (R122). -/
def takesPlace (b : BufNo) (d : DriveNo) (h : HomeTrack) (s : State) : Prop :=
  (∀ k, (s.buffer k).assigned ≠ some (d, h)) ∧ (s.buffer b).assigned = none ∧
  (∀ k, k < b → (s.buffer k).assigned ≠ none) ∧ ∀ c x, s.ctx c = some x → x.buffer ≠ some b

/-- An EMPTY buffer is assigned to a relocation and pinned by it (R156). -/
def pinsNew (b : BufNo) (d : DriveNo) (h : HomeTrack) (s : State) : State :=
  (assigns b d h s).modBuffer b fun r => { r with relocPin := true }

theorem buffer_pinsNew (b : BufNo) (d : DriveNo) (h : HomeTrack) (s : State) : (pinsNew b d h s).buffer b =
    ⟨some (d, h), [], true, .none, [], none, (s.buffer b).parityForce⟩ := by
  refine (get_change (assigns b d h s).buffers b b _).trans ?_
  rw [if_pos rfl, show (assigns b d h s).buffers.get b = (assigns b d h s).buffer b from rfl, buffer_assigns]

/-- The Relocation Record of a drive is as given (R153). -/
def recordIs (d : DriveNo) (r : Relocation) (s : State) : State := s.modTracks d fun t => { t with reloc := some r }

theorem reloc_recordIs (d : DriveNo) (r : Relocation) (s : State) : ((recordIs d r s).track d).reloc = some r := by
  simp [recordIs]

theorem lostOf_recordIs (r : Relocation) (k : HomeTrack) :
    lostOf ((recordIs d r s).track d) k = lostOf (s.track d) k := by
  simp [recordIs, lostOf, Tracks.entry]

theorem recordIs_recordIs (q r : Relocation) : recordIs d r (recordIs d q s) = recordIs d r s :=
  modTracks_modTracks d _ _ s

/-- A relocation asks for a buffer of a track that none holds, while one is EMPTY (R122, R156). -/
theorem request_relocation {r : Relocation} (hb : takesPlace b d h s) :
    request ⟨.relocation, d, h⟩ (recordIs d r s) =
      (pinsNew b d h (recordIs d { r with buffer := some b } s)).later [.holdBuffer d] := by
  obtain ⟨hn, he, hl, hc⟩ := hb
  have hs : suspendStaging b (pinsNew b d h (recordIs d { r with buffer := some b } s)) = _ := suspendStaging_none hc
  simp only [request, allocate, holderOf_none (s := recordIs d r s) hn, newPlace_empty (s := recordIs d r s) he hl]
  refine congrArg (State.later [.holdBuffer d]) ?_
  rw [← hs]
  simp only [recordIs, pinsNew, assigns, touch, emptyBuffer, State.modBuffer, State.modTracks, change_change]
  rfl

/-- A relocation that has been assigned its new buffer enters READ_OLD, with all that is listed lost pending (R156,
R157). -/
theorem holdBuffer_pinsNew {r : Relocation} (hp : r.phase = .waitBuffer) (hb : r.buffer = some b) :
    holdBuffer d (pinsNew b d h (recordIs d r s)) = (pinsNew b d h (recordIs d
      { r with phase := .readOld, pending := lostOf (s.track d) r.home, afresh := false } s)).later [.select d] := by
  have hr : ((pinsNew b d h (recordIs d r s)).track d).reloc = some r := reloc_recordIs d r s
  have hl : lostOf ((pinsNew b d h (recordIs d r s)).track d) r.home = lostOf (s.track d) r.home :=
    lostOf_recordIs r r.home
  have hbuf := buffer_pinsNew b d h (recordIs d r s)
  have hs : ((pinsNew b d h (recordIs d r s)).buffer b).state ≠ .destaging := by
    simp [hbuf, Buffer.state, Buffer.dirty]
  have hf : ((lostOf (s.track d) r.home).filter
      fun x => !((pinsNew b d h (recordIs d r s)).buffer b).holdsDirty x) = lostOf (s.track d) r.home :=
    List.filter_eq_self.mpr fun x _ => by simp [hbuf, Buffer.holdsDirty, Buffer.dirty]
  simp only [holdBuffer, hr, hp, hb, if_neg hs, beginReadOld, modReloc_some hr, hl, hf]
  exact congrArg (fun u => State.later [.select d] (pinsNew b d h u)) (recordIs_recordIs r _)

/-- A relocation is created while a spare is FREE and an EMPTY buffer can be had (R154). -/
theorem createRelocation_requests (hm : (s.track d).map = .loaded) (hr : (s.track d).reloc = none)
    (hf : ∃ i, (s.track d).pool.get i = .free) (hb : takesPlace b d h s) :
    createRelocation d h s = (pinsNew b d h (recordIs d
      ⟨h, translate (s.track d) h, none, .waitBuffer, some b, [], false⟩ s)).later [.holdBuffer d] := by
  obtain ⟨i, hi⟩ := freeSpare_of_free hf
  simp only [createRelocation, hm, hr, hi, ne_eq, not_true_eq_false, Option.isSome_none, Bool.false_eq_true, or_self,
    if_false]
  exact request_relocation (r := ⟨h, translate (s.track d) h, none, .waitBuffer, none, [], false⟩) hb

theorem select_busy (ha : (s.drive d).arm ≠ .idle) : select d s = s := if_neg ha

/-- A relocation of the track can be created, and enters READ_OLD at once to be served later: a map, no other
relocation, a FREE spare, an EMPTY buffer, and an arm that is not IDLE (R154, R156). -/
def canRelocate (b : BufNo) (d : DriveNo) (h : HomeTrack) (s : State) : Prop :=
  (s.track d).map = .loaded ∧ (s.track d).reloc = none ∧ (∃ i, (s.track d).pool.get i = .free) ∧
  takesPlace b d h s ∧ (s.drive d).arm ≠ .idle

theorem canRelocate_congr {t : State} (ht : t.tracks = s.tracks) (hd : t.drives = s.drives)
    (hb : t.buffers = s.buffers) (hc : t.contexts = s.contexts) (hs : canRelocate b d h s) : canRelocate b d h t := by
  simpa only [canRelocate, takesPlace, State.track, State.drive, State.buffer, State.ctx, ht, hd, hb, hc] using hs

/-- The relocation of a drive whose arm is not IDLE waits in READ_OLD to be served (R154 to R157). -/
theorem drain_createRelocation {n : Nat} (hw : s.work = []) (hs : canRelocate b d h s) :
    drain (n + 4) [.createRelocation d h] s = (pinsNew b d h s).modTracks d fun t =>
      { t with reloc := some ⟨h, translate t h, none, .readOld, some b, lostOf t h, false⟩ } := by
  obtain ⟨hm, hr, hf, hb, ha⟩ := hs
  have hreads : (pinsNew b d h s).modTracks d (fun t =>
        { t with reloc := some ⟨h, translate t h, none, .readOld, some b, lostOf t h, false⟩ }) =
      recordIs d ⟨h, translate (s.track d) h, none, .readOld, some b, lostOf (s.track d) h, false⟩ (pinsNew b d h s) :=
    StringDataPath.modTracks_congr rfl
  rw [hreads]
  refine drain_hands (createRelocation_requests hm hr hf hb) hw ?_
  refine drain_hands (k := .holdBuffer d) (holdBuffer_pinsNew rfl rfl) hw ?_
  exact drain_does (k := .select d) (select_busy ha) hw rfl

end

section
variable {l : LinkNo} {d : DriveNo} {tag hi lo head : Byte} {h : HomeTrack} {s : State}

/-- The decision of RELOCATE (R155). -/
def relocateVerdict (d : DriveNo) (h : HomeTrack) (s : State) : Verdict :=
  if (s.track d).map ≠ .loaded then refuse .state
  else if (s.track d).reloc.isSome then refuse .relocateBusy
  else accept id [.createRelocation d h]

theorem execRelocate_eq (hh : readHome hi lo head = some h) :
    execRelocate l tag [byteOf d.val, hi, lo, head] s = take s (manage l tag 13#8 true true (relocateVerdict d h)) := by
  simp only [execRelocate, trackVerdict, readDrive_byteOf, hh]
  rfl

theorem exec_relocate_refused {r : Reason} (hs : atFull l s) (hh : readHome hi lo head = some h)
    (hv : relocateVerdict d h s = refuse r) :
    exec (.relocate l tag [byteOf d.val, hi, lo, head]) s = .next (choose l (answered l 13#8 (.refused r none) s)) := by
  change execRelocate l tag [byteOf d.val, hi, lo, head] s = _
  rw [execRelocate_eq hh]
  exact take_refuses hs hv

/-- An accepted RELOCATE creates the relocation after the link's choice (R54, R155). -/
theorem exec_relocate (hs : atFull l s) (hh : readHome hi lo head = some h)
    (hv : relocateVerdict d h s = accept id [.createRelocation d h]) :
    exec (.relocate l tag [byteOf d.val, hi, lo, head]) s =
      .next (drain 4095 [.createRelocation d h] (choose l (accepted l 13#8 s))) := by
  obtain ⟨⟨hc, -⟩, -⟩ := id hs
  have hw : s.work = [] := hc.2
  change execRelocate l tag [byteOf d.val, hi, lo, head] s = _
  rw [execRelocate_eq hh]
  have hm : manage l tag 13#8 true true (relocateVerdict d h) s =
      (accepted l 13#8 s).later [.choose l, .createRelocation d h] :=
    manage_decides (early := id) hs hv
  rw [take_later hc hm hw]
  exact congrArg _ (drain_quiet 4095 (.choose l) _ _ (choose_work hw))

end

/-- Settles O39: the record and the map decide, and an accepted relocation's work runs behind the link's choice. -/
theorem relocateCreates : Obligations.RelocateCreates := by
  intro l d tag hi lo head h s hs hh
  obtain ⟨⟨⟨-, hw⟩, -⟩, -⟩ := id hs
  refine ⟨fun hm => ?_, fun hm hr => ?_, fun b hm hr hf hn he hl hc ha => ?_⟩
  · exact exec_relocate_refused hs hh (if_pos hm)
  · refine exec_relocate_refused hs hh ?_
    simp [relocateVerdict, hm, Option.isSome_iff_ne_none, hr]
  · have hv : relocateVerdict d h s = accept id [.createRelocation d h] := by simp [relocateVerdict, hm, hr]
    have hcan : canRelocate b d h (choose l (accepted l 13#8 s)) := by
      refine canRelocate_congr ?_ ?_ ?_ ?_ (s := accepted l 13#8 s) ⟨hm, hr, hf, ⟨hn, he, hl, hc⟩, ha⟩ <;> simp
    exact (exec_relocate hs hh hv).trans (congrArg _ (drain_createRelocation (n := 4091) (choose_work hw) hcan))

end Sys2Proof.Machine.AlternateTracks
end

section
namespace Sys2Proof.Machine.AlternateTracks
open Sys2Proof.Machine.Laws Sys2Proof.Machine.DriveString Sys2Proof.Machine.ChainControl
open Sys2Proof.Machine.ReservationControl
open Sys2Proof.Machine.StringDataPath (modTracks_congr track_modTracks)

/-! SUPPORT. A Track Map begun, loaded and committed (R145 to R147). -/

section
variable {d : DriveNo} {s : State}

/-- A cursor that does not name the drive does not become stale with its map (R148). -/
theorem staleMapCursors_none (hc : noMapCursor d s) : staleMapCursors d s = s := by
  refine each_nothing fun l _ => ?_
  have hl := hc l
  have hsame : (s.port l).cursor.map (fun k => match k with
      | .map e last stale => .map e last (stale || e == d)
      | other => other) = (s.port l).cursor := by
    cases hk : (s.port l).cursor with
    | none => rfl
    | some k =>
      cases k with
      | map e last stale =>
        have he : e ≠ d := fun he => hl last stale (he ▸ hk)
        simp [he]
      | suspect last stale => rfl
  unfold State.modPort
  rw [change_id]
  exact congrArg (fun k => { s.port l with cursor := k }) hsame

theorem noMapCursor_answered {l : LinkNo} {code : Byte} {a : Answer} (hc : noMapCursor d s) :
    noMapCursor d (answered l code a s) := by
  intro k last stale
  rw [show ((answered l code a s).port k).cursor = (s.port k).cursor from cursor_floorZero l k s]
  exact hc k last stale

/-! MAP-BEGIN (R145). -/

theorem mapBusy_iff : mapBusy s d = true ↔ 0 < driveLoad s d ∨ (s.track d).reloc ≠ none ∨
    ∃ b, (s.buffer b).ofDrive d = true ∧ ((s.buffer b).state = .dirty ∨ (s.buffer b).state = .destaging) := by
  simp [mapBusy, mem_allBufs, Option.isSome_iff_ne_none, or_assoc]

/-- A map is begun for a drive of which no suspect entry, buffer or cursor is left, and nobody waits for a buffer. -/
theorem beginMap_bare (hb : ∀ b, (s.buffer b).ofDrive d = false) (he : ∀ e ∈ s.suspects, e.drive ≠ d)
    (hl : (s.track d).sparesLow = false) (hc : noMapCursor d s) (hw : s.bufWait = []) :
    beginMap d s = s.modTracks d fun t =>
      { t with map := .loading, entries := [], retired := [], pool := Vector.replicate 40 .free } := by
  generalize hbegun : (s.modTracks d fun t =>
    { t with map := .loading, entries := [], retired := [], pool := Vector.replicate 40 .free }) = u
  have hlow : (u.track d).sparesLow = false := by simpa [← hbegun] using hl
  have hsuspects : removeSuspects (fun e => e.drive == d) u = u :=
    removeSuspects_none (by subst hbegun; simpa using he)
  have hbuffers : (allBufs.filter fun b => (u.buffer b).ofDrive d && (u.buffer b).state == .clean) = [] :=
    List.filter_eq_nil_iff.mpr fun b _ => by
      have hub : (u.buffer b).ofDrive d = false := by subst hbegun; exact hb b
      simp [hub]
  have hserve : serve u = u := serve_none (by subst hbegun; exact hw)
  have hcursors : staleMapCursors d u = u := staleMapCursors_none (by subst hbegun; exact hc)
  simp only [beginMap, hbegun, endSparesLow_clear hlow, ite_self, hsuspects, hbuffers, each_nil, hserve, hcursors]

/-- The decision of MAP-BEGIN (R145). -/
def beginVerdict (d : DriveNo) (s : State) : Verdict :=
  if (s.drive d).arm = .notReady then refuse .state
  else if mapBusy s d then refuse .mapBusy
  else accept (beginMap d) []

theorem execMapBegin_eq (l : LinkNo) (d : DriveNo) (tag : Byte) (s : State) :
    execMapBegin l tag [byteOf d.val] s = take s (manage l tag 10#8 true true (beginVerdict d)) := by
  simp only [execMapBegin, driveVerdict, List.head?_cons, Option.bind_some, readDrive_byteOf]
  rfl

theorem exec_mapBegin_refused {l : LinkNo} {tag : Byte} {r : Reason} (hs : atFull l s)
    (hv : beginVerdict d s = refuse r) :
    exec (.mapBegin l tag [byteOf d.val]) s = .next (choose l (answered l 10#8 (.refused r none) s)) :=
  (execMapBegin_eq l d tag s).trans (take_refuses hs hv)

end

/-- Settles O37: the arm's state, then what of the drive is in use. -/
theorem mapBegin : Obligations.MapBegin := by
  intro l d tag s hs
  obtain ⟨⟨⟨-, hwork⟩, -⟩, -⟩ := id hs
  refine ⟨fun ha => ?_, fun ha hu => ?_, fun ha hload hr hb he hl hc hw => ?_⟩
  · exact exec_mapBegin_refused hs (if_pos ha)
  · exact exec_mapBegin_refused hs ((if_neg ha).trans (if_pos (mapBusy_iff.mpr hu)))
  · have hfree : ¬mapBusy s d = true := by simp [mapBusy_iff, hload, hr, hb]
    have hv : beginVerdict d s = accept (beginMap d) [] := (if_neg ha).trans (if_neg hfree)
    have hbegin := beginMap_bare (s := accepted l 10#8 s) hb he hl (noMapCursor_answered hc) hw
    exact (execMapBegin_eq l d tag s).trans (take_accepts hs hv hbegin hwork)

/-! MAP-LOAD (R146). -/

section
variable {l : LinkNo} {d : DriveNo} {tag hi lo head spare : Byte} {mask : Nat} {homes : List HomeTrack}
  {spares : List SpareNo} {i : SpareNo} {h : HomeTrack} {t : Tracks} {item : RawItem} {s : State}

theorem readSpare_byteOf (i : SpareNo) : readSpare (byteOf i.val) = some i := by
  have hb : (byteOf i.val).toNat = i.val := by
    simp only [byteOf, BitVec.toNat_ofNat]
    omega
  simp [readSpare, hb]

theorem readSpare_above (hs : 40 ≤ spare.toNat) : readSpare spare = none := dif_neg (by omega)

theorem checkItem_entry_unread (hn : readHome hi lo head = none ∨ readSpare spare = none) :
    checkItem homes spares (.entry hi lo head spare mask) = none := by
  rcases hn with hn | hn
  · simp [checkItem, hn]
  · cases hh : readHome hi lo head <;> simp [checkItem, hn]

theorem checkItem_entry (hh : readHome hi lo head = some h) (hs : readSpare spare = some i) :
    checkItem homes spares (.entry hi lo head spare mask) =
      if h ∈ homes ∨ i ∈ spares then none else some (some h, i, ofMask mask) := by
  simp [checkItem, hh, hs]

theorem checkItem_entry_named (hs : readSpare spare = some i) (hn : i ∈ spares) :
    checkItem homes spares (.entry hi lo head spare mask) = none := by
  cases hh : readHome hi lo head with
  | none => exact checkItem_entry_unread (.inl hh)
  | some h => rw [checkItem_entry hh hs, if_pos (.inr hn)]

theorem checkItem_retired_unread (hs : readSpare spare = none) : checkItem homes spares (.retired spare) = none := by
  simp [checkItem, hs]

theorem checkItem_retired (hs : readSpare spare = some i) :
    checkItem homes spares (.retired spare) = if i ∈ spares then none else some (none, i, []) := by
  simp [checkItem, hs]

/-- The item check against what a map names already (R146). -/
def checkedIn (t : Tracks) (item : RawItem) : Option (Option HomeTrack × SpareNo × List SectorNo) :=
  checkItem (t.entries.map (·.home)) (t.entries.map (·.spare) ++ t.retired) item

theorem loadItems_error (hc : checkedIn t item = none) : loadItems [item] 0 t = .inr 0 := by
  unfold checkedIn at hc
  simp [loadItems, hc]

theorem loadItems_entry {lost : List SectorNo} (hc : checkedIn t item = some (some h, i, lost)) :
    loadItems [item] 0 t = .inl { t with entries := putEntry ⟨h, i, lost⟩ t.entries } := by
  unfold checkedIn at hc
  simp [loadItems, hc]

theorem loadItems_retired {lost : List SectorNo} (hc : checkedIn t item = some (none, i, lost)) :
    loadItems [item] 0 t = .inl { t with retired := t.retired ++ [i] } := by
  unfold checkedIn at hc
  simp [loadItems, hc]

/-- The decision of a MAP-LOAD of one item (R146). -/
def loadVerdict (d : DriveNo) (item : RawItem) (s : State) : Verdict :=
  if (s.track d).map ≠ .loading then refuse .state
  else
    match loadItems [item] 0 (s.track d) with
    | .inl t => accept (fun u => u.modTracks d fun _ => t) []
    | .inr i => ⟨.refused .loadError (some i), id, []⟩

theorem execMapLoad_one {bytes : List Byte} (hl : bytes.length = 7) (hr : readItems 1 bytes = some [item]) :
    execMapLoad l tag (byteOf d.val :: 1#8 :: bytes) s = take s (manage l tag 11#8 true true (loadVerdict d item)) := by
  have hlen : ((byteOf d.val :: 1#8 :: bytes).length == 2 + 7 * 1) = true := by simp [hl]
  have hn : (1#8).toNat = 1 := rfl
  unfold execMapLoad
  simp only [hn, hlen, readDrive_byteOf, hr, List.length_singleton]
  rfl

/-- A MAP-LOAD of one item where no map is loading (R146). -/
theorem exec_mapLoad_state {bytes : List Byte} (hs : atFull l s) (hl : bytes.length = 7)
    (hr : readItems 1 bytes = some [item]) (hm : (s.track d).map ≠ .loading) :
    exec (.mapLoad l tag (byteOf d.val :: 1#8 :: bytes)) s =
      .next (choose l (answered l 11#8 (.refused .state none) s)) :=
  (execMapLoad_one hl hr).trans (take_refuses hs (if_pos hm))

/-- A MAP-LOAD of one item that fails the check (R146). -/
theorem exec_mapLoad_error {bytes : List Byte} (hs : atFull l s) (hl : bytes.length = 7)
    (hr : readItems 1 bytes = some [item]) (hm : (s.track d).map = .loading) (hc : checkedIn (s.track d) item = none) :
    exec (.mapLoad l tag (byteOf d.val :: 1#8 :: bytes)) s =
      .next (choose l (answered l 11#8 (.refused .loadError (some 0)) s)) := by
  refine (execMapLoad_one hl hr).trans (take_refuses hs ?_)
  refine (if_neg (not_not_intro hm)).trans ?_
  rw [show (floorZero l s).track d = s.track d from rfl, loadItems_error hc]

/-- A MAP-LOAD of one item that joins the map (R146). -/
theorem exec_mapLoad_joins {bytes : List Byte} {f : Tracks → Tracks} (hs : atFull l s) (hl : bytes.length = 7)
    (hr : readItems 1 bytes = some [item]) (hm : (s.track d).map = .loading)
    (hj : loadItems [item] 0 (s.track d) = .inl (f (s.track d))) :
    exec (.mapLoad l tag (byteOf d.val :: 1#8 :: bytes)) s =
      .next (choose l ((accepted l 11#8 s).modTracks d f)) := by
  have hw : s.work = [] := atIdle_work hs.1
  have hv : loadVerdict d item (floorZero l s) =
      accept (fun u => u.modTracks d fun _ => f (s.track d)) [] := by
    refine (if_neg (not_not_intro hm)).trans ?_
    rw [show (floorZero l s).track d = s.track d from rfl, hj]
  exact (execMapLoad_one hl hr).trans (take_accepts hs hv (modTracks_congr rfl) hw)

end

/-! MAP-COMMIT (R147). -/

section
variable {l : LinkNo} {d : DriveNo} {tag : Byte} {s : State}

/-- With enough FREE spares nothing is told of them (R152). -/
theorem evalSpares_enough (hl : (s.track d).sparesLow = false)
    (hf : (s.policy d).spareLowMark < spareCount (s.track d) .free) : evalSpares d s = s := by
  simp [evalSpares, hl, hf]

theorem poolOf_eq (t : Tracks) : poolOf t = Vector.ofFn fun i =>
    if i ∈ t.entries.map (·.spare) then .inUse else if i ∈ t.retired then .retired else .free := by
  simp only [poolOf, List.contains_iff_mem]

theorem commitMap_enough (hl : (s.track d).sparesLow = false) (hc : noMapCursor d s)
    (hf : (s.policy d).spareLowMark < spareCount { s.track d with pool := poolOf (s.track d) } .free) :
    commitMap d s = s.modTracks d fun t => { t with pool := poolOf (s.track d), retired := [], map := .loaded } := by
  have hset : s.modTracks d (fun t => { t with pool := poolOf t, retired := [], map := .loaded }) =
      s.modTracks d fun t => { t with pool := poolOf (s.track d), retired := [], map := .loaded } :=
    modTracks_congr rfl
  unfold commitMap
  rw [hset, evalSpares_enough (by simpa using hl) (by simpa [spareCount, State.policy, State.drive] using hf)]
  exact staleMapCursors_none hc

/-- The decision of MAP-COMMIT (R147). -/
def commitVerdict (d : DriveNo) (s : State) : Verdict :=
  if (s.track d).map ≠ .loading then refuse .state else accept (commitMap d) []

theorem execMapCommit_eq : execMapCommit l tag [byteOf d.val] s =
    take s (manage l tag 12#8 true true (commitVerdict d)) := by
  simp only [execMapCommit, driveVerdict, List.head?_cons, Option.bind_some, readDrive_byteOf]
  rfl

end

/-- Settles O38: the check of the one item decides a load, and a commit has nothing to tell of the spares. -/
theorem mapLoadCommit : Obligations.MapLoadCommit := by
  refine ⟨fun l d tag hi lo head spare m1 m0 s hs => ?_, fun l d tag s hs => ?_⟩
  · refine ⟨fun hm => ⟨exec_mapLoad_state hs rfl rfl hm, exec_mapLoad_state hs rfl rfl hm⟩,
      fun hm => ⟨fun hn => ?_, fun hn => ?_, fun i hsp => ?_⟩⟩
    · exact exec_mapLoad_error hs rfl rfl hm (checkItem_entry_unread (hn.imp_right readSpare_above))
    · exact exec_mapLoad_error hs rfl rfl hm (checkItem_retired_unread (readSpare_above hn))
    · have hread : readSpare spare = some i := hsp ▸ readSpare_byteOf i
      refine ⟨fun hn => ⟨?_, ?_⟩, fun hn => ?_, fun h hh => ⟨fun hn => ?_, fun hn hnh => ?_⟩⟩
      · exact exec_mapLoad_error hs rfl rfl hm (checkItem_entry_named hread (List.mem_append.mpr hn))
      · exact exec_mapLoad_error hs rfl rfl hm ((checkItem_retired hread).trans (if_pos (List.mem_append.mpr hn)))
      · exact exec_mapLoad_joins hs rfl rfl hm (loadItems_retired (lost := [])
          ((checkItem_retired hread).trans (if_neg (mt List.mem_append.mp hn))))
      · exact exec_mapLoad_error hs rfl rfl hm ((checkItem_entry hh hread).trans (if_pos (.inl hn)))
      · exact exec_mapLoad_joins hs rfl rfl hm (loadItems_entry
          ((checkItem_entry hh hread).trans (if_neg (not_or.mpr ⟨hnh, mt List.mem_append.mp hn⟩))))
  · refine ⟨fun hm => execMapCommit_eq.trans (take_refuses hs (if_pos hm)), fun hm hl hc hf => ?_⟩
    have hw : s.work = [] := atIdle_work hs.1
    rw [← poolOf_eq] at hf ⊢
    exact execMapCommit_eq.trans (take_accepts hs (if_neg (not_not_intro hm))
      (commitMap_enough (s := accepted l 12#8 s) hl (noMapCursor_answered hc) hf) hw)

end Sys2Proof.Machine.AlternateTracks
end

section
namespace Sys2Proof.Machine.AlternateTracks
open Sys2Proof.Machine.DriveString Sys2Proof.Machine.ChainControl
open Sys2Proof.Machine.TrackBuffers (take_reads)

/-! SUPPORT. The map and the Suspect Track List read item by item, with the management cursor (R148, R149, R174). -/

theorem readFlag_flagByte (a : Bool) : readFlag (flagByte a) = some a := by
  cases a <;> rfl

/-- The data of an answer that lists what is left to read (R149, R174). -/
theorem listed_map {α : Type} (f : α → List Byte) (rest : List α) :
    listed (rest.map f) =
      [byteOf (rest.take Config.readItems).length, flagByte (decide (rest.length ≤ Config.readItems))]
        ++ (rest.take Config.readItems).flatMap f := by
  simp only [listed, ← List.map_take, List.length_map, List.flatMap]
  rfl

section
variable {l : LinkNo} {tag : Byte} {restart : Bool} {s : State}

/-! MAP-READ (R149). -/

section
variable {d : DriveNo}

theorem mapReadVerdict_notLoaded (hm : (s.track d).map ≠ .loaded) : mapReadVerdict l d restart s = refuse .state :=
  if_pos hm

theorem mapReadVerdict_stale (hm : (s.track d).map = .loaded) (hc : mapStale (s.port l).cursor d = true) :
    mapReadVerdict l d false s = ⟨.refused .cursorStale none, setCursor l none, []⟩ :=
  (if_neg (not_not_intro hm)).trans (if_pos ⟨rfl, hc⟩)

/-- A MAP-READ from the start lists the map, and the cursor is left at the last item (R149). -/
theorem mapReadVerdict_starts (hm : (s.track d).map = .loaded)
    (hs : restart = true ∨ mapStale (s.port l).cursor d = false)
    (hl : restart = true ∨ mapLast (s.port l).cursor d = none) :
    mapReadVerdict l d restart s = ⟨.accepted (listed ((mapSequence (s.track d)).map (·.2))), setCursor l (some
      (.map d (((mapSequence (s.track d)).take Config.readItems).getLast?.map (·.1)) false)), []⟩ := by
  have hloaded : ¬(s.track d).map ≠ .loaded := not_not_intro hm
  have hfresh : ¬(restart = false ∧ mapStale (s.port l).cursor d = true) := by
    rcases hs with hs | hs <;> simp [hs]
  have hlast : (if restart = true then none else mapLast (s.port l).cursor d) = none := by
    rcases hl with hl | hl <;> simp [hl]
  simp only [mapReadVerdict, if_neg hloaded, if_neg hfresh, hlast, listed_map]
  cases ((mapSequence (s.track d)).take Config.readItems).getLast? <;> rfl

/-- A MAP-READ goes on after the cursor's item, and the cursor stays there where nothing follows (R149). -/
theorem mapReadVerdict_goesOn {m : MapMark} {rest : List (MapMark × List Byte)} (hm : (s.track d).map = .loaded)
    (hs : mapStale (s.port l).cursor d = false) (hl : mapLast (s.port l).cursor d = some m)
    (hr : ((mapSequence (s.track d)).filter fun i => m.before i.1) = rest) :
    mapReadVerdict l d false s = ⟨.accepted (listed (rest.map (·.2))), setCursor l (some
      (.map d (((rest.take Config.readItems).getLast?.map (·.1)).or (some m)) false)), []⟩ := by
  have hloaded : ¬(s.track d).map ≠ .loaded := not_not_intro hm
  simp only [mapReadVerdict, if_neg hloaded, hs, hl, hr, listed_map, Bool.false_eq_true, and_false, if_false]
  cases (rest.take Config.readItems).getLast? <;> rfl

/-- A cursor that names no item of the drive's map, if it is for the map at all, reads it from the start. -/
theorem mapCursor_starts {k : Option Cursor}
    (hk : ∀ last stale, k = some (.map d last stale) → last = none ∧ stale = false) :
    mapStale k d = false ∧ mapLast k d = none := by
  rcases k with _ | ⟨e, last, stale⟩ | _
  case some.map =>
    by_cases he : e = d
    · obtain ⟨hlast, hstale⟩ := hk last stale (by rw [he])
      simp [mapStale, mapLast, hlast, hstale]
    · simp [mapStale, mapLast, he]
  all_goals exact ⟨rfl, rfl⟩

theorem exec_mapRead {answer : Answer} {early : State → State} {u : State} (h : atIdle l s)
    (hv : mapReadVerdict l d restart (floorZero l s) = ⟨answer, early, []⟩)
    (hu : early (answered l 3#8 answer s) = u) (hw : u.work = []) :
    exec (.mapRead l tag [byteOf d.val, flagByte restart]) s = .next (choose l u) := by
  change execMapRead l tag [byteOf d.val, flagByte restart] s = _
  refine take_reads h ?_ hu hw
  simp only [readDrive_byteOf, readFlag_flagByte]
  exact hv

end

/-! SUSPECT-READ (R174). -/

theorem suspectReadVerdict_stale {last : Option (DriveNo × HomeTrack)}
    (hk : (s.port l).cursor = some (.suspect last true)) :
    suspectReadVerdict l false s = ⟨.refused .cursorStale none, setCursor l none, []⟩ := by
  simp only [suspectReadVerdict, hk, and_self, if_true]

/-- A SUSPECT-READ from the start lists the entries, and the cursor is left at the last (R174). -/
theorem suspectReadVerdict_starts (hs : restart = true ∨
      ∀ last stale, (s.port l).cursor = some (.suspect last stale) → last = none ∧ stale = false) :
    suspectReadVerdict l restart s = ⟨.accepted (listed (s.suspects.map Suspect.bytes)), setCursor l (some
      (.suspect ((s.suspects.take Config.readItems).getLast?.map fun e => (e.drive, e.home)) false)), []⟩ := by
  rcases hk : (s.port l).cursor with _ | _ | ⟨last, stale⟩
  case some.suspect =>
    have hrest : restart = true ∨ last = none ∧ stale = false := hs.imp_right fun hs => hs last stale hk
    have hfresh : ¬(restart = false ∧ stale = true) := by
      rcases hrest with hr | ⟨-, hr⟩ <;> simp [hr]
    have hlast : (if restart then none else last) = none := by
      rcases hrest with hr | ⟨hr, -⟩ <;> simp [hr]
    simp only [suspectReadVerdict, hk, if_neg hfresh, hlast, suspectsAfter, listed_map]
    cases (s.suspects.take Config.readItems).getLast? <;> rfl
  all_goals
    simp only [suspectReadVerdict, hk, Bool.false_eq_true, and_false, if_false, suspectsAfter, listed_map]
    cases (s.suspects.take Config.readItems).getLast? <;> rfl

/-- What stands after the entry that a cursor names (R174). -/
theorem suspectsAfter_entry {before after : List Suspect} {e : Suspect}
    (hb : ∀ k ∈ before, ¬(k.drive = e.drive ∧ k.home = e.home)) :
    suspectsAfter (before ++ e :: after) (some (e.drive, e.home)) = after := by
  have hskip : ∀ k ∈ before, (!k.isFor e.drive e.home) = true := fun k hk => by
    simpa [Suspect.isFor, imp_iff_not_or] using hb k hk
  have hstop : e.isFor e.drive e.home = true := by simp [Suspect.isFor]
  simp [suspectsAfter, List.dropWhile_append_of_pos hskip, hstop]

/-- A SUSPECT-READ goes on after the cursor's entry, and the cursor stays there where nothing follows (R174). -/
theorem suspectReadVerdict_goesOn {p : DriveNo × HomeTrack} {rest : List Suspect}
    (hk : (s.port l).cursor = some (.suspect (some p) false)) (hr : suspectsAfter s.suspects (some p) = rest) :
    suspectReadVerdict l false s = ⟨.accepted (listed (rest.map Suspect.bytes)), setCursor l (some
      (.suspect (((rest.take Config.readItems).getLast?.map fun e => (e.drive, e.home)).or (some p)) false)), []⟩ := by
  simp only [suspectReadVerdict, hk, Bool.false_eq_true, and_false, if_false, hr, listed_map]
  cases (rest.take Config.readItems).getLast? <;> rfl

theorem exec_suspectRead {answer : Answer} {k : Option Cursor} (h : atIdle l s)
    (hv : suspectReadVerdict l restart (floorZero l s) = ⟨answer, setCursor l k, []⟩) :
    exec (.suspectRead l tag [flagByte restart]) s = .next (choose l (leavesCursor l k (answered l 4#8 answer s))) := by
  have hw : s.work = [] := atIdle_work h
  change execSuspectRead l tag [flagByte restart] s = _
  refine take_reads h ?_ rfl hw
  simp only [List.head?_cons, Option.bind_some, readFlag_flagByte]
  exact hv

end

/-- Settles O32: the cursor decides whether a read starts anew, is refused, or goes on. -/
theorem cursorReads : Obligations.CursorReads := by
  refine ⟨fun l tag d restart s h => ?_, fun l tag restart s h => ?_⟩
  · have hcur := cursor_floorZero l l s
    have hw : s.work = [] := atIdle_work h
    refine ⟨fun hm => ?_, fun hm hs => ?_, fun hm hr => ?_⟩
    · exact exec_mapRead h (mapReadVerdict_notLoaded hm) rfl hw
    · have hstarts := hs.imp_right mapCursor_starts
      rw [← hcur] at hstarts
      exact exec_mapRead h (mapReadVerdict_starts hm (hstarts.imp_right And.left) (hstarts.imp_right And.right)) rfl hw
    · subst hr
      refine ⟨fun last hk => ?_, fun m hk => ?_⟩
      · exact exec_mapRead h (mapReadVerdict_stale hm (by simp [hcur, hk, mapStale])) rfl hw
      · exact exec_mapRead h (mapReadVerdict_goesOn (s := floorZero l s) hm (by simp [hcur, hk, mapStale])
          (by simp [hcur, hk, mapLast]) rfl) rfl hw
  · have hcur := cursor_floorZero l l s
    refine ⟨fun hs => ?_, fun hr => ?_⟩
    · exact exec_suspectRead h (suspectReadVerdict_starts (by rwa [hcur]))
    · subst hr
      refine ⟨fun last hk => ?_, fun before e after hs hb hk => ?_⟩
      · exact exec_suspectRead h (suspectReadVerdict_stale (hcur.trans hk))
      · exact exec_suspectRead h (suspectReadVerdict_goesOn (s := floorZero l s) (hcur.trans hk)
          ((congrArg (suspectsAfter · _) hs).trans (suspectsAfter_entry hb)))

end Sys2Proof.Machine.AlternateTracks
end

section
namespace Sys2Proof.Machine.AlternateTracks
open Sys2Proof.Machine.Laws Sys2Proof.Machine.DriveString Sys2Proof.Machine.ChainControl

/-! SUPPORT. The Suspect Track List: the entry of a track, the reports that join it, the threshold test, and what
SUSPECT-PLACE and SUSPECT-REMOVE decide (R167 to R169, R172 to R174). -/

section
variable {d : DriveNo} {h : HomeTrack} {e : Suspect} {s : State}

/-! The entry of a track (R167). -/

theorem isFor_iff : e.isFor d h = true ↔ e.drive = d ∧ e.home = h := by
  simp [Suspect.isFor]

theorem suspectOf_isSome_iff : (suspectOf s d h).isSome = true ↔ ∃ e ∈ s.suspects, e.drive = d ∧ e.home = h := by
  simp only [suspectOf, List.find?_isSome, isFor_iff]

theorem suspectOf_eq_none (hn : ¬∃ e ∈ s.suspects, e.drive = d ∧ e.home = h) : suspectOf s d h = none :=
  Option.not_isSome_iff_eq_none.mp (mt suspectOf_isSome_iff.mp hn)

/-- An entry that joins the list is the one of its track. -/
theorem suspectOf_joined (hn : ¬∃ e ∈ s.suspects, e.drive = d ∧ e.home = h) (he : e.drive = d ∧ e.home = h) :
    suspectOf { s with suspects := s.suspects ++ [e] } d h = some e := by
  have hold : (s.suspects.find? fun k => k.isFor d h) = none := suspectOf_eq_none hn
  simp [suspectOf, List.find?_append, hold, isFor_iff.mpr he]

/-- The entry of a track leaves the list, and the SUSPECT cursors become stale (R173, R174). -/
theorem removeSuspects_found (hf : ∃ e ∈ s.suspects, e.drive = d ∧ e.home = h) :
    removeSuspects (fun e => e.isFor d h) s =
      staleSuspectCursors { s with suspects := s.suspects.filter fun e => !(e.drive == d && e.home == h) } := by
  obtain ⟨e, hmem, he⟩ := hf
  exact if_pos (List.any_eq_true.mpr ⟨e, hmem, isFor_iff.mpr he⟩)

/-! The reports (R168). -/

/-- A reported track counts once more, up to the highest count (R168). -/
def countedIn (d : DriveNo) (h : HomeTrack) (e : Suspect) : Suspect :=
  if e.drive = d ∧ e.home = h then { e with count := if e.count < 15 then e.count + 1 else e.count } else e

theorem modSuspect_counts : modSuspect d h (fun e => { e with count := upTo Config.countMax e.count }) s =
    { s with suspects := s.suspects.map (countedIn d h) } := by
  simp only [modSuspect, isFor_iff]
  rfl

theorem report_notLoaded (hm : (s.track d).map ≠ .loaded) : report d h s = s := if_pos hm

theorem report_counts (hm : (s.track d).map = .loaded) (hf : ∃ e ∈ s.suspects, e.drive = d ∧ e.home = h) :
    report d h s = ({ s with suspects := s.suspects.map (countedIn d h) } : State).later [.threshold d h] := by
  rw [report, if_neg (not_not_intro hm), if_pos (suspectOf_isSome_iff.mpr hf), modSuspect_counts]

theorem report_joins (hm : (s.track d).map = .loaded) (hn : ¬∃ e ∈ s.suspects, e.drive = d ∧ e.home = h)
    (hl : s.suspects.length < Config.suspectPlaces) : report d h s =
      ({ s with suspects := s.suspects ++ [⟨d, h, 1, .detected, false, false⟩] } : State).later [.threshold d h] := by
  rw [report, if_neg (not_not_intro hm), if_neg (mt suspectOf_isSome_iff.mp hn), if_pos hl]

theorem report_full (hm : (s.track d).map = .loaded) (hn : ¬∃ e ∈ s.suspects, e.drive = d ∧ e.home = h)
    (hl : Config.suspectPlaces ≤ s.suspects.length) :
    report d h s = raiseOn (allLinks.filter fun l => (s.port l).state != .down) .suspectListFull s := by
  rw [report, if_neg (not_not_intro hm), if_neg (mt suspectOf_isSome_iff.mp hn), if_neg (Nat.not_lt.mpr hl)]

/-! The threshold test (R169). -/

theorem threshold_below (he : suspectOf s d h = some e) (hc : e.count < (s.policy d).spareThreshold) :
    threshold d h s = s := by
  simp only [threshold, he]
  exact if_pos (.inr hc)

theorem threshold_advises (he : suspectOf s d h = some e) (hb : e.blocked = false)
    (hc : (s.policy d).spareThreshold ≤ e.count) (ha : (s.policy d).autoSpare = false) :
    threshold d h s = raiseDrive d (.spareAdvised d h) s := by
  have htest : ¬(e.blocked = true ∨ e.count < (s.policy d).spareThreshold) := by simp [hb, hc]
  simp only [threshold, he, if_neg htest, if_pos ha]

end

/-- Settles O60: the map, then the entry of the track, then the room on the list. -/
theorem trackReported : Obligations.TrackReported := fun _ _ _ =>
  ⟨report_notLoaded, report_counts, report_joins, report_full⟩

/-! SUSPECT-PLACE (R172). -/

section
variable {l : LinkNo} {d : DriveNo} {tag hi lo head count : Byte} {h : HomeTrack} {s : State}

/-- A placed entry at the end of the list (R172). -/
def joinsPlaced (d : DriveNo) (h : HomeTrack) (n : Nat) (s : State) : State :=
  { s with suspects := s.suspects ++ [⟨d, h, n, .placed, false, false⟩] }

/-- The entry whose threshold test follows the response is the one placed. -/
theorem suspectOf_placed {n : Nat} (hn : ¬∃ e ∈ s.suspects, e.drive = d ∧ e.home = h) :
    suspectOf (choose l (joinsPlaced d h n (accepted l 14#8 s))) d h = some ⟨d, h, n, .placed, false, false⟩ := by
  have hsame : (choose l (joinsPlaced d h n (accepted l 14#8 s))).suspects =
      s.suspects ++ [⟨d, h, n, .placed, false, false⟩] := by
    simp only [choose_keeps]
    rfl
  rw [suspectOf, hsame]
  exact suspectOf_joined (s := s) hn ⟨rfl, rfl⟩

theorem policy_placed {n : Nat} : (choose l (joinsPlaced d h n (accepted l 14#8 s))).policy d = s.policy d := by
  simp only [State.policy, State.drive, choose_keeps]
  rfl

theorem placeVerdict_refuses {n : Nat} (hr : (s.track d).map ≠ .loaded ∨
    (∃ e ∈ s.suspects, e.drive = d ∧ e.home = h) ∨ Config.suspectPlaces ≤ s.suspects.length) :
    placeVerdict s d h n = refuse .state :=
  if_pos (by rwa [suspectOf_isSome_iff])

theorem placeVerdict_accepts {n : Nat} (hm : (s.track d).map = .loaded)
    (hn : ¬∃ e ∈ s.suspects, e.drive = d ∧ e.home = h) (hl : s.suspects.length < Config.suspectPlaces) :
    placeVerdict s d h n = accept (joinsPlaced d h n) [.threshold d h] := by
  refine if_neg ?_
  rw [suspectOf_isSome_iff]
  rintro (hmap | hfound | hfull)
  · exact hmap hm
  · exact hn hfound
  · exact absurd hl (Nat.not_lt.mpr hfull)

theorem exec_suspectPlace_range (hs : atFull l s) (hh : readHome hi lo head = some h) (hc : 15 < count.toNat) :
    exec (.suspectPlace l tag [byteOf d.val, hi, lo, head, count]) s =
      .next (choose l (answered l 14#8 (.refused .range none) s)) := by
  have hread : readWithin 0 15 count = none := if_neg (by omega)
  change execSuspectPlace l tag [byteOf d.val, hi, lo, head, count] s = _
  refine take_refuses hs ?_
  simp [trackVerdict, readDrive_byteOf, hh, hread, refuse]

/-- A SUSPECT-PLACE whose operands are all in range comes to the tests of the list (R172). -/
theorem execSuspectPlace_within (hh : readHome hi lo head = some h) (hc : count.toNat ≤ 15) :
    execSuspectPlace l tag [byteOf d.val, hi, lo, head, count] s =
      take s (manage l tag 14#8 true true fun t => placeVerdict t d h count.toNat) := by
  have hread : readWithin 0 15 count = some count.toNat := if_pos (by omega)
  simp [execSuspectPlace, trackVerdict, readDrive_byteOf, hh, hread]

theorem exec_suspectPlace_state (hs : atFull l s) (hh : readHome hi lo head = some h) (hc : count.toNat ≤ 15)
    (hr : (s.track d).map ≠ .loaded ∨ (∃ e ∈ s.suspects, e.drive = d ∧ e.home = h) ∨
      Config.suspectPlaces ≤ s.suspects.length) :
    exec (.suspectPlace l tag [byteOf d.val, hi, lo, head, count]) s =
      .next (choose l (answered l 14#8 (.refused .state none) s)) :=
  (execSuspectPlace_within hh hc).trans (take_refuses hs (placeVerdict_refuses (s := floorZero l s) hr))

/-- An accepted SUSPECT-PLACE: the threshold test is the work that follows the link's choice (R54, R169; log 18). -/
theorem exec_suspectPlace {u : State} (hs : atFull l s) (hh : readHome hi lo head = some h) (hc : count.toNat ≤ 15)
    (hm : (s.track d).map = .loaded) (hn : ¬∃ e ∈ s.suspects, e.drive = d ∧ e.home = h)
    (hl : s.suspects.length < Config.suspectPlaces)
    (ht : threshold d h (choose l (joinsPlaced d h count.toNat (accepted l 14#8 s))) = u) (hu : u.work = []) :
    exec (.suspectPlace l tag [byteOf d.val, hi, lo, head, count]) s = .next u := by
  obtain ⟨⟨hcalm, -⟩, -⟩ := id hs
  obtain ⟨-, hwork⟩ := id hcalm
  have hw : (joinsPlaced d h count.toNat (accepted l 14#8 s)).work = [] := hwork
  have hmanage := manage_decides (tag := tag) (code := 14#8) (needsFull := true)
    (verdict := fun t => placeVerdict t d h count.toNat) hs
    (placeVerdict_accepts (s := floorZero l s) (n := count.toNat) hm hn hl)
  refine (execSuspectPlace_within hh hc).trans ((take_later hcalm hmanage hw).trans (congrArg _ ?_))
  refine drain_does (k := .choose l) rfl (choose_work hw) ?_
  exact drain_does (k := .threshold d h) ht hu rfl

/-! SUSPECT-REMOVE (R173). -/

/-- The decision of SUSPECT-REMOVE (R173). -/
def removeVerdict (d : DriveNo) (h : HomeTrack) (s : State) : Verdict :=
  if (suspectOf s d h).isSome then accept (removeSuspects fun e => e.isFor d h) [] else refuse .state

theorem execSuspectRemove_eq (hh : readHome hi lo head = some h) :
    execSuspectRemove l tag [byteOf d.val, hi, lo, head] s =
      take s (manage l tag 15#8 true true (removeVerdict d h)) := by
  simp only [execSuspectRemove, trackVerdict, readDrive_byteOf, hh]
  rfl

theorem exec_suspectRemove_state (hs : atFull l s) (hh : readHome hi lo head = some h)
    (hn : ¬∃ e ∈ s.suspects, e.drive = d ∧ e.home = h) :
    exec (.suspectRemove l tag [byteOf d.val, hi, lo, head]) s =
      .next (choose l (answered l 15#8 (.refused .state none) s)) :=
  (execSuspectRemove_eq hh).trans
    (take_refuses hs (if_neg (mt (suspectOf_isSome_iff (s := floorZero l s)).mp hn)))

theorem exec_suspectRemove (hs : atFull l s) (hh : readHome hi lo head = some h)
    (hf : ∃ e ∈ s.suspects, e.drive = d ∧ e.home = h) :
    exec (.suspectRemove l tag [byteOf d.val, hi, lo, head]) s =
      .next (choose l (staleSuspectCursors { accepted l 15#8 s with
        suspects := s.suspects.filter fun e => !(e.drive == d && e.home == h) })) := by
  have hw : s.work = [] := atIdle_work hs.1
  exact (execSuspectRemove_eq hh).trans
    (take_accepts hs (if_pos ((suspectOf_isSome_iff (s := floorZero l s)).mpr hf))
      (removeSuspects_found (s := accepted l 15#8 s) hf) hw)

end

/-- Settles O40: the tests of each operation in their order, and the threshold test behind the link's choice. -/
theorem suspectPlaceRemove : Obligations.SuspectPlaceRemove := by
  intro l d tag hi lo head count h s hs hh
  have hw : s.work = [] := atIdle_work hs.1
  have hplaced : (choose l (joinsPlaced d h count.toNat (accepted l 14#8 s))).work = [] := choose_work hw
  refine ⟨exec_suspectPlace_range hs hh, exec_suspectPlace_state hs hh, fun hc hm hn hl => ?_,
    exec_suspectRemove_state hs hh, exec_suspectRemove hs hh⟩
  have hentry := suspectOf_placed (l := l) (n := count.toNat) hn
  refine ⟨fun hbelow => ?_, fun hreached hoff => ?_⟩
  · have hquiet := threshold_below hentry (by rwa [policy_placed])
    exact exec_suspectPlace hs hh hc hm hn hl hquiet hplaced
  · have hadvises := threshold_advises hentry rfl (by rwa [policy_placed]) (by rwa [policy_placed])
    exact exec_suspectPlace hs hh hc hm hn hl hadvises (raiseOn_work hplaced)

end Sys2Proof.Machine.AlternateTracks
end

section
namespace Sys2Proof.Machine.DriveFencing
open Sys2Proof.Machine.Laws

/-! SUPPORT. What leaves the Fence Records alone (R177): for every operation that is none of Fence Control's own, one
equation. The equations form a simp set. -/

/-- What each application leaves alone, the whole leaves alone. -/
theorem each_fences {α : Type} {f : α → State → State} (h : ∀ x t, (f x t).fences = t.fences) (xs : List α)
    (s : State) : (each xs f s).fences = s.fences :=
  each_keeps (P := fun t => t.fences = s.fences) (fun x t ht => (h x t).trans ht) xs s rfl

theorem ahead_fences (ts : List Task) {f : State → State} (h : ∀ t, (f t).fences = t.fences) (s : State) :
    (State.ahead ts f s).fences = s.fences :=
  h { s with work := [] }

section
variable (s : State)

/-! Presentation (chapter 3). -/

@[simp] theorem setFloor_fences (l : LinkNo) (f : Fin 16) : (setFloor l f s).fences = s.fences := rfl

@[simp] theorem setItems_fences (l : LinkNo) (xs : List Item) : (setItems l xs s).fences = s.fences := rfl

@[simp] theorem clearSet_fences (l : LinkNo) : (clearSet l s).fences = s.fences := rfl

@[simp] theorem raiseOn_fences (ls : List LinkNo) (b : ItemBody) : (raiseOn ls b s).fences = s.fences :=
  each_fences (fun l t => by simp) ls s

@[simp] theorem withdraw_fences (l : LinkNo) (b : ItemBody) : (withdraw l b s).fences = s.fences := by
  unfold withdraw
  dsimp only
  (repeat' split) <;> simp

@[simp] theorem endLevel_fences (b : ItemBody) : (endLevel b s).fences = s.fences :=
  each_fences (fun _ _ => rfl) allLinks s

@[simp] theorem controllerFree_fences : (controllerFree s).fences = s.fences := by simp [controllerFree]

@[simp] theorem freeCtx_fences (c : CtxNo) : (freeCtx c s).fences = s.fences := by simp [freeCtx]

@[simp] theorem dataLost_fences (b : BufNo) (xs : List SectorNo) : (dataLost b xs s).fences = s.fences := by
  unfold dataLost
  split <;> simp

/-! Reservations (chapter 4). -/

@[simp] theorem handOff_fences (d : DriveNo) : (handOff d s).fences = s.fences := by
  unfold handOff
  split <;> simp

@[simp] theorem clearHolder_fences (d : DriveNo) : (clearHolder d s).fences = s.fences := by simp [clearHolder]

@[simp] theorem leaveWait_fences (l : LinkNo) (d : DriveNo) : (leaveWait l d s).fences = s.fences := rfl

@[simp] theorem reserve_fences (l : LinkNo) (d : DriveNo) (wait : Bool) :
    (reserve l d wait s).fences = s.fences := by
  unfold reserve
  (repeat' split) <;> simp

@[simp] theorem release_fences (l : LinkNo) (d : DriveNo) : (release l d s).fences = s.fences := by
  unfold release
  (repeat' split) <;> simp

@[simp] theorem takeAway_fences (l : LinkNo) (d : DriveNo) : (takeAway l d s).fences = s.fences := by simp [takeAway]

@[simp] theorem losePath_fences (l : LinkNo) (d : DriveNo) : (losePath l d s).fences = s.fences := by
  unfold losePath
  split <;> simp

@[simp] theorem loseReservation_fences (l : LinkNo) (d : DriveNo) : (loseReservation l d s).fences = s.fences := by
  unfold loseReservation
  split <;> simp

@[simp] theorem loseReservations_fences (l : LinkNo) : (loseReservations l s).fences = s.fences :=
  each_fences (fun d t => by simp) allDrives s

/-! The Buffer Store (chapter 7). -/

@[simp] theorem joinQueue_fences (d : DriveNo) (w : Work) (home : HomeTrack) :
    (joinQueue d w home s).fences = s.fences := by
  unfold joinQueue
  split <;> simp

@[simp] theorem leaveQueue_fences (d : DriveNo) (w : Work) : (leaveQueue d w s).fences = s.fences := rfl

@[simp] theorem giveItem_fences (b : BufNo) : (giveItem b s).fences = s.fences := by
  unfold giveItem
  split <;> simp

@[simp] theorem joinTogether_fences (bs : List BufNo) : (joinTogether bs s).fences = s.fences :=
  each_fences (fun b t => by simp) bs s

@[simp] theorem joinInTurn_fences (bs : List BufNo) : (joinInTurn bs s).fences = s.fences :=
  each_fences (fun b t => by split <;> simp) bs s

@[simp] theorem flushItems_fences (d : DriveNo) : (flushItems d s).fences = s.fences := by simp [flushItems]

theorem throughItems_fences {join : List BufNo → State → State} (d : DriveNo)
    (h : ∀ bs t, (join bs t).fences = t.fences) : (throughItems join d s).fences = s.fences :=
  h _ s

@[simp] theorem reclaim_fences : (reclaim s).fences = s.fences := by
  unfold reclaim
  split <;> simp

@[simp] theorem unlist_fences (gone : Waiter → Bool) : (unlist gone s).fences = s.fences := rfl

@[simp] theorem reclaimCheck_fences : (reclaimCheck s).fences = s.fences := by
  unfold reclaimCheck
  split <;> simp

@[simp] theorem touch_fences (b : BufNo) : (touch b s).fences = s.fences := rfl

@[simp] theorem emptyBuffer_fences (b : BufNo) : (emptyBuffer b s).fences = s.fences := rfl

@[simp] theorem suspendCtx_fences (c : CtxNo) : (suspendCtx c s).fences = s.fences := by
  unfold suspendCtx
  dsimp only
  (repeat' split) <;> simp

@[simp] theorem suspendStaging_fences (b : BufNo) : (suspendStaging b s).fences = s.fences :=
  each_fences (fun c t => by simp) _ s

@[simp] theorem stage_fences (c : CtxNo) : (stage c s).fences = s.fences := by
  unfold stage
  (repeat' split) <;> simp

@[simp] theorem resumeStaging_fences (b : BufNo) : (resumeStaging b s).fences = s.fences := by
  unfold resumeStaging
  split
  · simp
  · exact each_fences (fun c t => by simp) _ s

@[simp] theorem assign_fences (who : Requester) (d : DriveNo) (b : BufNo) : (assign who d b s).fences = s.fences := by
  unfold assign
  split <;> simp

theorem allocate_fences {w : Waiter} {s t : State} (h : allocate w s = some t) : t.fences = s.fences := by
  unfold allocate at h
  (repeat' split at h) <;> cases h <;> simp

@[simp] theorem request_fences (w : Waiter) : (request w s).fences = s.fences := by
  unfold request
  split
  · next t ht => exact allocate_fences ht
  · simp

@[simp] theorem serveWaiter_fences (w : Waiter) : (serveWaiter w s).fences = s.fences := by
  unfold serveWaiter
  cases ht : allocate w s with
  | none => simp
  | some t => simpa using allocate_fences ht

theorem serveTimes_fences (n : Nat) : ∀ s, (serveTimes n s).fences = s.fences := by
  induction n with
  | zero => exact fun s => rfl
  | succ n ih =>
    intro s
    unfold serveTimes
    (repeat' split)
    · simp
    · simp [ih, each_fences]
    · simp

@[simp] theorem serve_fences : (serve s).fences = s.fences := serveTimes_fences _ s

@[simp] theorem flushTest_fences (d : DriveNo) : (flushTest d s).fences = s.fences := by
  unfold flushTest
  split
  · simp
  · exact each_fences (fun c t => by simp) _ s

@[simp] theorem emptyOf_fences (d : DriveNo) (b : BufNo) : (emptyOf d b s).fences = s.fences := by simp [emptyOf]

@[simp] theorem retainRule_fences (b : BufNo) : (retainRule b s).fences = s.fences := by
  unfold retainRule
  (repeat' split) <;> simp

@[simp] theorem afterUnpin_fences (b : BufNo) : (afterUnpin b s).fences = s.fences := by
  unfold afterUnpin
  dsimp only
  (repeat' split) <;> simp

@[simp] theorem leftDirty_fences (b : BufNo) : (leftDirty b s).fences = s.fences := by
  unfold leftDirty
  dsimp only
  (repeat' split) <;> simp

@[simp] theorem noteStored_fences (b : BufNo) (x : SectorNo) : (noteStored b x s).fences = s.fences := rfl

@[simp] theorem storeCell_fences (b : BufNo) (x : SectorNo) (data : List Byte) (dirty : Bool) :
    (storeCell b x data dirty s).fences = s.fences := rfl

@[simp] theorem storeFrame_fences (l : LinkNo) (b : BufNo) (x : SectorNo) (data : List Byte) :
    (storeFrame l b x data s).fences = s.fences := by
  unfold storeFrame
  dsimp only
  (repeat' split) <;> simp

@[simp] theorem cleanSector_fences (b : BufNo) (x : SectorNo) : (cleanSector b x s).fences = s.fences := by
  unfold cleanSector
  dsimp only
  split <;> simp

@[simp] theorem capture_fences (k : Capture) : (capture k s).fences = s.fences := by
  unfold capture
  split <;> simp

@[simp] theorem parityFailure_fences (b : BufNo) (x : SectorNo) (toDrive : Bool) (by_ : CaptureBy) :
    (parityFailure b x toDrive by_ s).fences = s.fences := by
  unfold parityFailure
  dsimp only
  (repeat' split) <;> simp

@[simp] theorem unpin_fences (c : CtxNo) : (unpin c s).fences = s.fences := by
  unfold unpin
  split <;> simp

@[simp] theorem clearRelocPin_fences (b : BufNo) : (clearRelocPin b s).fences = s.fences := by simp [clearRelocPin]

@[simp] theorem destageEnded_fences (d : DriveNo) (b : BufNo) : (destageEnded d b s).fences = s.fences := by
  unfold destageEnded
  dsimp only
  (repeat' split) <;> simp

@[simp] theorem destageStopped_fences (b : BufNo) : (destageStopped b s).fences = s.fences := by
  unfold destageStopped
  dsimp only
  (repeat' split) <;> simp

/-! Alternate and suspect tracks (chapters 8 and 9). -/

@[simp] theorem evalSpares_fences (d : DriveNo) : (evalSpares d s).fences = s.fences := by
  unfold evalSpares
  dsimp only
  (repeat' split) <;> simp

@[simp] theorem endSparesLow_fences (d : DriveNo) : (endSparesLow d s).fences = s.fences := by
  unfold endSparesLow
  split <;> rfl

@[simp] theorem staleMapCursors_fences (d : DriveNo) : (staleMapCursors d s).fences = s.fences := rfl

@[simp] theorem staleSuspectCursors_fences : (staleSuspectCursors s).fences = s.fences := rfl

@[simp] theorem removeSuspects_fences (gone : Suspect → Bool) : (removeSuspects gone s).fences = s.fences := by
  unfold removeSuspects
  split <;> simp

@[simp] theorem modSuspect_fences (d : DriveNo) (h : HomeTrack) (f : Suspect → Suspect) :
    (modSuspect d h f s).fences = s.fences := rfl

@[simp] theorem report_fences (d : DriveNo) (h : HomeTrack) : (report d h s).fences = s.fences := by
  unfold report
  (repeat' split) <;> simp

@[simp] theorem threshold_fences (d : DriveNo) (h : HomeTrack) : (threshold d h s).fences = s.fences := by
  unfold threshold
  (repeat' split) <;> simp

@[simp] theorem recordFree_fences (d : DriveNo) : (recordFree d s).fences = s.fences := by
  unfold recordFree
  (repeat' split)
  · simp
  · simp
  · simp
  · exact each_fences (fun k t => by simp) _ _

@[simp] theorem relocOutcome_fences (d : DriveNo) (h : HomeTrack) (o : RelocOutcome) :
    (relocOutcome d h o s).fences = s.fences := by
  unfold relocOutcome
  dsimp only
  (repeat' split) <;> simp

@[simp] theorem setSpare_fences (d : DriveNo) (i : SpareNo) (k : SpareState) :
    (setSpare d i k s).fences = s.fences := rfl

@[simp] theorem modReloc_fences (d : DriveNo) (f : Relocation → Relocation) :
    (modReloc d f s).fences = s.fences := rfl

@[simp] theorem removeRecord_fences (d : DriveNo) (r : Relocation) : (removeRecord d r s).fences = s.fences := by
  unfold removeRecord
  split <;> simp

@[simp] theorem createRelocation_fences (d : DriveNo) (h : HomeTrack) :
    (createRelocation d h s).fences = s.fences := by
  unfold createRelocation
  dsimp only
  (repeat' split) <;> simp

@[simp] theorem beginAgain_fences (d : DriveNo) : (beginAgain d s).fences = s.fences := by
  unfold beginAgain
  (repeat' split) <;> rfl

@[simp] theorem holdBuffer_fences (d : DriveNo) : (holdBuffer d s).fences = s.fences := by
  unfold holdBuffer
  (repeat' split) <;> rfl

@[simp] theorem relocFailed_fences (d : DriveNo) (r : Relocation) : (relocFailed d r s).fences = s.fences := by
  simp [relocFailed]

@[simp] theorem takeSpare_fences (d : DriveNo) : (takeSpare d s).fences = s.fences := by
  unfold takeSpare
  (repeat' split) <;> simp

@[simp] theorem readOldEnds_fences (d : DriveNo) (left : List SectorNo) :
    (readOldEnds d left s).fences = s.fences := by
  simp [readOldEnds]

@[simp] theorem spareFails_fences (d : DriveNo) : (spareFails d s).fences = s.fences := by
  unfold spareFails
  (repeat' split) <;> simp

@[simp] theorem writeNewEnds_fences (d : DriveNo) : (writeNewEnds d s).fences = s.fences := rfl

@[simp] theorem commit_fences (d : DriveNo) : (commit d s).fences = s.fences := by
  unfold commit
  (repeat' split) <;> simp

@[simp] theorem abandon_fences (d : DriveNo) : (abandon d s).fences = s.fences := by
  unfold abandon
  (repeat' split) <;> simp

@[simp] theorem written_fences (d : DriveNo) (h : HomeTrack) (x : SectorNo) : (written d h x s).fences = s.fences := rfl

/-! The arm (chapters 1 and 5). -/

@[simp] theorem startRecal_fences (d : DriveNo) (why : RecalReason) : (startRecal d why s).fences = s.fences := rfl

@[simp] theorem clearGrant_fences (d : DriveNo) : (clearGrant d s).fences = s.fences := rfl

@[simp] theorem dropSelection_fences (d : DriveNo) : (dropSelection d s).fences = s.fences := rfl

theorem applyPolicy_fences {join : List BufNo → State → State} (d : DriveNo)
    (h : ∀ bs t, (join bs t).fences = t.fences) : (applyPolicy join d s).fences = s.fences := by
  unfold applyPolicy
  dsimp only
  (repeat' split) <;> simp [throughItems_fences _ d h]

@[simp] theorem enterIdle_fences (d : DriveNo) : (enterIdle d s).fences = s.fences := by
  unfold enterIdle
  dsimp only
  split <;> simp [applyPolicy_fences]

@[simp] theorem armIdle_fences (d : DriveNo) : (armIdle d s).fences = s.fences := by
  unfold armIdle
  split <;> simp

@[simp] theorem givePasses_fences (d : DriveNo) (i : QueueItem) : (givePasses d i s).fences = s.fences := by
  unfold givePasses
  split <;> simp

@[simp] theorem orientTo_fences (d : DriveNo) (o : Orient) : (orientTo d o s).fences = s.fences := rfl

@[simp] theorem endDestage_fences (d : DriveNo) (b : BufNo) : (endDestage d b s).fences = s.fences :=
  ahead_fences _ (fun t => by simp) _

@[simp] theorem destageNext_fences (d : DriveNo) (b : BufNo) (home : HomeTrack) (after : Option SectorNo) :
    (destageNext d b home after s).fences = s.fences := by
  unfold destageNext
  split <;> simp

@[simp] theorem relocArrives_fences (d : DriveNo) (phase : RelocPhase) :
    (relocArrives d phase s).fences = s.fences := by
  unfold relocArrives
  dsimp only
  (repeat' split) <;> simp

@[simp] theorem arrived_fences (d : DriveNo) : (arrived d s).fences = s.fences := by
  unfold arrived
  (repeat' split) <;> simp

@[simp] theorem startSeek_fences (d : DriveNo) : (startSeek d s).fences = s.fences := by
  unfold startSeek
  (repeat' split) <;> simp

@[simp] theorem engage_fences (d : DriveNo) (w : Work) : (engage d w s).fences = s.fences := by
  unfold engage
  split <;> simp

@[simp] theorem selectItem_fences (d : DriveNo) (cur : Fin 604) (i : QueueItem) :
    (selectItem d cur i s).fences = s.fences := by
  unfold selectItem
  dsimp only
  (repeat' split) <;> simp

@[simp] theorem select_fences (d : DriveNo) : (select d s).fences = s.fences := by
  unfold select
  (repeat' split) <;> simp

@[simp] theorem settleEnds_fences (d : DriveNo) : (settleEnds d s).fences = s.fences := by
  unfold settleEnds
  (repeat' split) <;> simp

@[simp] theorem settleTick_fences (d : DriveNo) : (settleTick d s).fences = s.fences := by
  unfold settleTick
  (repeat' split) <;> simp

@[simp] theorem destageCut_fences (d : DriveNo) (k : Selection) (b : BufNo) :
    (destageCut d k b s).fences = s.fences := by
  unfold destageCut
  split <;> simp

/-! Chains (chapter 2). -/

@[simp] theorem withdrawFrom_fences (c : CtxNo) (x : Context) : (withdrawFrom c x s).fences = s.fences := by
  unfold withdrawFrom
  dsimp only
  (repeat' split) <;> simp

theorem beginEnding_fences {arm : State → State} (c : CtxNo) (cond : Condition) (entry : Option Nat)
    (sectors : List SectorNo) (h : ∀ t, (arm t).fences = t.fences) :
    (beginEnding c cond entry sectors arm s).fences = s.fences := by
  unfold beginEnding
  dsimp only
  (repeat' split) <;> simp [h]

theorem endChain_fences {arm : State → State} (c : CtxNo) (cond : Condition) (entry : Option Nat)
    (sectors : List SectorNo) (h : ∀ t, (arm t).fences = t.fences) (s : State) :
    (endChain c cond entry sectors arm s).fences = s.fences := by
  unfold endChain
  (repeat' split) <;> simp [beginEnding_fences _ _ _ _ _ h]

@[simp] theorem raiseEnding_fences (c : CtxNo) : (raiseEnding c s).fences = s.fences := by
  unfold raiseEnding
  (repeat' split) <;> simp

@[simp] theorem endAtEntry_fences (c : CtxNo) (cond : Condition) (sectors : List SectorNo) :
    (endAtEntry c cond sectors s).fences = s.fences := by
  unfold endAtEntry
  split
  · exact endChain_fences _ _ _ _ (fun t => by simp) s
  · simp

@[simp] theorem detachArm_fences (d : DriveNo) : (detachArm d s).fences = s.fences := by
  unfold detachArm
  split <;> simp

@[simp] theorem withdrawQuietly_fences (c : CtxNo) : (withdrawQuietly c s).fences = s.fences := by
  unfold withdrawQuietly
  (repeat' split) <;> simp

@[simp] theorem freeWithdrawn_fences (c : CtxNo) : (freeWithdrawn c s).fences = s.fences := by simp [freeWithdrawn]

@[simp] theorem freeContext_fences (c : CtxNo) : (freeContext c s).fences = s.fences := by
  unfold freeContext
  split <;> simp

@[simp] theorem giveUpArm_fences (c : CtxNo) (x : Context) : (giveUpArm c x s).fences = s.fences := by
  unfold giveUpArm
  split <;> simp

@[simp] theorem needArm_fences (c : CtxNo) (x : Context) : (needArm c x s).fences = s.fences := by
  unfold needArm
  split <;> simp

@[simp] theorem advance_fences (c : CtxNo) : (advance c s).fences = s.fences := rfl

@[simp] theorem walkRead_fences (c : CtxNo) (x : Context) (first : SectorNo) (count : Nat) :
    (walkRead c x first count s).fences = s.fences := by
  unfold walkRead
  dsimp only
  (repeat' split) <;> simp

@[simp] theorem walkWrite_fences (c : CtxNo) (x : Context) (first : SectorNo) (count : Nat) :
    (walkWrite c x first count s).fences = s.fences := by
  unfold walkWrite
  (repeat' split) <;> simp

@[simp] theorem startStep_fences (c : CtxNo) : (startStep c s).fences = s.fences := by
  unfold startStep
  (repeat' split) <;> simp

@[simp] theorem assigned_fences (c : CtxNo) : (assigned c s).fences = s.fences := by
  unfold assigned
  (repeat' split) <;> simp

@[simp] theorem endStep_fences (c : CtxNo) : (endStep c s).fences = s.fences := by simp [endStep]

@[simp] theorem nextStep_fences (c : CtxNo) : (nextStep c s).fences = s.fences := by
  unfold nextStep
  (repeat' split) <;> simp

@[simp] theorem readDone_fences (c : CtxNo) : (readDone c s).fences = s.fences := by
  unfold readDone
  (repeat' split) <;> simp

@[simp] theorem deliver_fences (c : CtxNo) : (deliver c s).fences = s.fences := by
  unfold deliver
  dsimp only
  (repeat' split) <;> simp

@[simp] theorem flushWait_fences (c : CtxNo) : (flushWait c s).fences = s.fences := by
  unfold flushWait
  (repeat' split) <;> simp

@[simp] theorem walk_fences (c : CtxNo) : (walk c s).fences = s.fences := by
  unfold walk
  (repeat' split) <;> simp

/-! Passes (chapter 6). -/

@[simp] theorem modPass_fences (f : Pass → Pass) : (modPass f s).fences = s.fences := rfl

@[simp] theorem clearDropped_fences (d : DriveNo) (p : Pass) : (clearDropped d p s).fences = s.fences := by
  unfold clearDropped
  dsimp only
  split <;> simp

@[simp] theorem endDropped_fences (d : DriveNo) (p : Pass) : (endDropped d p s).fences = s.fences := by
  simp [endDropped]

@[simp] theorem stopStep_fences (d : DriveNo) (c : CtxNo) (cond : Condition) (x : SectorNo) (before : List Task) :
    (stopStep d c cond x before s).fences = s.fences := by
  unfold stopStep
  split <;> simp

@[simp] theorem stopFault_fences (d : DriveNo) (p : Pass) (x : SectorNo) : (stopFault d p x s).fences = s.fences := by
  unfold stopFault
  (repeat' split) <;> simp

@[simp] theorem withhold_fences (d : DriveNo) (p : Pass) (x : SectorNo) : (withhold d p x s).fences = s.fences := by
  unfold withhold
  (repeat' split) <;> simp

@[simp] theorem beginSector_fences (d : DriveNo) (p : Pass) : (beginSector d p s).fences = s.fences := by
  unfold beginSector
  dsimp only
  (repeat' split) <;> simp

@[simp] theorem grantPass_fences (d : DriveNo) (o : Orient) : (grantPass d o s).fences = s.fences := by
  unfold grantPass cancelBooking
  dsimp only
  (repeat' split) <;> simp

@[simp] theorem miss_fences (d : DriveNo) (o : Orient) : (miss d o s).fences = s.fences := by
  unfold miss
  dsimp only
  split <;> simp

@[simp] theorem claim_fences (d : DriveNo) (x : SectorNo) : (claim d x s).fences = s.fences := by
  unfold claim
  (repeat' split) <;> simp

@[simp] theorem retryPass_fences (d : DriveNo) (o : Orient) (left : List SectorNo) :
    (retryPass d o left s).fences = s.fences := rfl

@[simp] theorem finishPass_fences (d : DriveNo) (p : Pass) : (finishPass d p s).fences = s.fences := by
  unfold finishPass
  dsimp only
  (repeat' split) <;> simp

@[simp] theorem satisfied_fences (d : DriveNo) (x : SectorNo) : (satisfied d x s).fences = s.fences := rfl

@[simp] theorem takeWritten_fences (d : DriveNo) (p : Pass) (x : SectorNo) :
    (takeWritten d p x s).fences = s.fences := by
  unfold takeWritten
  (repeat' split) <;> simp

@[simp] theorem afterResult_fences (d : DriveNo) : (afterResult d s).fences = s.fences := by
  unfold afterResult
  dsimp only
  (repeat' split) <;> simp

@[simp] theorem takeRead_fences (d : DriveNo) (p : Pass) (x : SectorNo) (data : Option (List Byte)) :
    (takeRead d p x data s).fences = s.fences := by
  unfold takeRead
  dsimp only
  (repeat' split) <;> simp

@[simp] theorem takeNext_fences (d : DriveNo) (r : PassResult) : (takeNext d r s).fences = s.fences := by
  unfold takeNext
  (repeat' split) <;> simp

@[simp] theorem sectorResult_fences (d : DriveNo) (sec : SectorNo) (r : PassResult) :
    (sectorResult d sec r s).fences = s.fences := by
  unfold sectorResult
  (repeat' split) <;> simp

@[simp] theorem closeSector_fences (d : DriveNo) : (closeSector d s).fences = s.fences := by
  unfold closeSector
  dsimp only
  (repeat' split) <;> simp

/-! Fences (chapter 10). -/

@[simp] theorem cutPass_fences (d : DriveNo) : (cutPass d s).fences = s.fences := by
  unfold cutPass
  (repeat' split) <;> simp

@[simp] theorem fenceWork_fences (d : DriveNo) (k : Option Selection) : (fenceWork d k s).fences = s.fences := by
  unfold fenceWork
  (repeat' split) <;> simp [endChain_fences]

@[simp] theorem releaseItems_fences (d : DriveNo) : (releaseItems d s).fences = s.fences := by simp [releaseItems]

@[simp] theorem raiseReady_fences (d : DriveNo) (why : Option RecalReason) :
    (raiseReady d why s).fences = s.fences := by
  unfold raiseReady
  split <;> simp

@[simp] theorem idleReady_fences (d : DriveNo) (why : Option RecalReason) :
    (idleReady d why s).fences = s.fences := by
  simp [idleReady, applyPolicy_fences]

@[simp] theorem purge_fences (d : DriveNo) : (purge d s).fences = s.fences :=
  each_fences (fun _ => endChain_fences _ _ _ _ fun _ => rfl) _ s

/-! The loss of a drive (R13, R14). -/

@[simp] theorem dropDrive_fences (d : DriveNo) (ready late : Bool) :
    (dropDrive d ready late s).fences = s.fences := by
  unfold dropDrive
  simp [each_fences, beginEnding_fences]

@[simp] theorem loseBuffer_fences (b : BufNo) : (loseBuffer b s).fences = s.fences := by
  unfold loseBuffer
  dsimp only
  split <;> simp

@[simp] theorem losePack_fences (d : DriveNo) (wasFenced : Bool) : (losePack d wasFenced s).fences = s.fences := by
  unfold losePack
  dsimp only
  (repeat' split) <;> simp [each_fences]

/-! The drive events. -/

@[simp] theorem comingReady_fences (d : DriveNo) : (comingReady d s).fences = s.fences := rfl

@[simp] theorem seekCheck_fences (d : DriveNo) : (seekCheck d s).fences = s.fences := by
  unfold seekCheck
  dsimp only
  (repeat' split) <;> simp [endChain_fences]

@[simp] theorem seekOutcome_fences (d : DriveNo) (good : Bool) : (seekOutcome d good s).fences = s.fences := by
  unfold seekOutcome
  (repeat' split) <;> simp

@[simp] theorem sectorEvent_fences (d : DriveNo) : (sectorEvent d s).fences = s.fences := by
  unfold sectorEvent
  dsimp only
  (repeat' split) <;> simp

@[simp] theorem faultOnPass_fences (d : DriveNo) : (faultOnPass d s).fences = s.fences := by
  unfold faultOnPass
  (repeat' split) <;> simp

/-! The link frames. -/

@[simp] theorem joinCtxWait_fences (l : LinkNo) (notify : Bool) : (joinCtxWait l notify s).fences = s.fences := by
  unfold joinCtxWait
  split <;> simp

@[simp] theorem haltCtx_fences (c : CtxNo) : (haltCtx c s).fences = s.fences := by
  unfold haltCtx
  (repeat' split) <;> simp [endChain_fences]

@[simp] theorem resetCtx_fences (c : CtxNo) : (resetCtx c s).fences = s.fences := by
  unfold resetCtx
  split <;> simp

@[simp] theorem resetLink_fences (l : LinkNo) (enters : LinkState) : (resetLink l enters s).fences = s.fences := by
  simp [resetLink, each_fences]

@[simp] theorem deliveryEnds_fences (l : LinkNo) (c : CtxNo) (x : Context) :
    (deliveryEnds l c x s).fences = s.fences := by
  unfold deliveryEnds
  split <;> simp

/-- The pre-step entries, one after another (R25). -/
theorem runPre_fences (l : LinkNo) (d : DriveNo) (es : List Entry) (i : Nat) (r : PreResult) :
    (runPre l d es i r).state.fences = r.state.fences := by
  induction es generalizing i r with
  | nil => rfl
  | cons e es ih =>
    cases e with
    | seek | read | write | flush | sense => exact ih _ _
    | reserve | release =>
      unfold runPre
      dsimp only
      split <;> simp [ih]

@[simp] theorem decideChain_fences (l : LinkNo) (d : DriveNo) (tag : Byte) (notify : Bool) (es : List Entry) :
    (decideChain l d tag notify es s).fences = s.fences := by
  unfold decideChain
  dsimp only
  (repeat' split) <;> simp [runPre_fences]

@[simp] theorem acceptance_fences (l : LinkNo) (unit : BitVec 4) (tag : Byte) (notify : Bool) (count : Byte)
    (body : List Byte) : (acceptance l unit tag notify count body s).fences = s.fences := by
  unfold acceptance
  dsimp only
  (repeat' split) <;> simp

/-! Management operations (chapter 11). -/

@[simp] theorem beginMap_fences (d : DriveNo) : (beginMap d s).fences = s.fences := by
  unfold beginMap
  dsimp only
  (repeat' split) <;> simp [each_fences (f := emptyBuffer) fun _ _ => rfl]

@[simp] theorem commitMap_fences (d : DriveNo) : (commitMap d s).fences = s.fences := by simp [commitMap]

@[simp] theorem discard_fences (b : BufNo) : (discard b s).fences = s.fences := by
  unfold discard
  dsimp only
  (repeat' split) <;> simp

@[simp] theorem turnSwitches_fences (turned : Option (Vector Byte 8)) :
    (turnSwitches turned s).fences = s.fences := by
  unfold turnSwitches
  split <;> rfl

@[simp] theorem writeLevels_fences (l target : LinkNo) (levels : Vector (Fin 16) 13) :
    (writeLevels l target levels s).fences = s.fences := by
  unfold writeLevels
  dsimp only
  split <;> simp

@[simp] theorem writeRow_fences (target : LinkNo) (row : Vector Bool 8) :
    (writeRow target row s).fences = s.fences :=
  each_fences (fun d t => by split <;> simp) allDrives _

/-! The resets (R199). -/

@[simp] theorem resetPort_fences (l : LinkNo) : (resetPort l s).fences = s.fences := by
  unfold resetPort
  split <;> rfl

@[simp] theorem dropRelocation_fences (d : DriveNo) : (dropRelocation d s).fences = s.fences := by
  unfold dropRelocation
  (repeat' split) <;> simp

@[simp] theorem sparesQuietly_fences (d : DriveNo) : (sparesQuietly d s).fences = s.fences := rfl

@[simp] theorem resetArm_fences (d : DriveNo) : (resetArm d s).fences = s.fences := by
  unfold resetArm
  (repeat' split) <;> simp

@[simp] theorem policyQuietly_fences (d : DriveNo) : (policyQuietly d s).fences = s.fences := by
  unfold policyQuietly
  (repeat' split) <;> simp

@[simp] theorem resetBuffer_fences (b : BufNo) : (resetBuffer b s).fences = s.fences := by
  unfold resetBuffer
  dsimp only
  (repeat' split) <;> simp

@[simp] theorem resetController_fences : (resetController s).fences = s.fences := by
  unfold resetController
  extract_lets s1 s2 s3 s4 path s5 s6 s7 s8
  calc _ = s8.fences := each_fences (fun d t => by simp) _ _
    _ = s6.fences := by simp [s8, s7, each_fences]
    _ = s4.fences := by simp [s6, s5, each_fences]
    _ = s2.fences := by simp [s4, s3, each_fences]
    _ = s.fences := each_fences (fun l t => by simp) _ _

end

end Sys2Proof.Machine.DriveFencing
end

section
namespace Sys2Proof.Machine.DriveFencing
open Sys2Proof.Machine.Laws

/-! SUPPORT. The law of one Fence Record (R177, R179, R187), and what Fence Control does to a record. -/

/-- The Fence Record of a drive that has been changed. -/
@[simp] theorem fence_modFence (d e : DriveNo) (f : Fence → Fence) (s : State) :
    (s.modFence d f).fence e = if d = e then f (s.fence d) else s.fence e := get_change s.fences d e f

/-- The law of one drive's record: fenced and releasing exclude each other, and a safe state is commanded in both. -/
def InStep (f : Fence) : Prop :=
  ¬(f.flag = true ∧ f.releasePending = true) ∧ (f.commanded.isSome = (f.flag || f.releasePending))

theorem fenceLaw_iff (s : State) : fenceLaw s ↔ ∀ d, InStep (s.fence d) := Iff.rfl

section
variable {s t : State} {d : DriveNo}

/-- The law speaks of the Fence Records alone. -/
theorem fenceLaw_congr (h : t.fences = s.fences) (hs : fenceLaw s) : fenceLaw t := by
  simpa only [fenceLaw, State.fence, h] using hs

/-- A change of one record that keeps its law keeps the law of all. -/
theorem fenceLaw_modFence {f : Fence → Fence} (hs : fenceLaw s)
    (hf : InStep (s.fence d) → InStep (f (s.fence d))) : fenceLaw (s.modFence d f) := by
  rw [fenceLaw_iff] at hs ⊢
  intro e
  rw [fence_modFence]
  split
  · exact hf (hs d)
  · exact hs e

/-- A safe state is commanded while a release is pending. -/
theorem InStep.commanded_of_releasing {f : Fence} (h : InStep f) (hr : f.releasePending = true) :
    f.commanded.isSome = true := by
  obtain ⟨-, hc⟩ := h
  simp [hc, hr]

/-- A safe state is commanded while the drive is fenced. -/
theorem InStep.commanded_of_fenced {f : Fence} (h : InStep f) (hf : f.flag = true) : f.commanded.isSome = true := by
  obtain ⟨-, hc⟩ := h
  simp [hc, hf]

/-! The act of fencing (R182 to R185). -/

theorem sendSafeState_keepsLaw (hs : fenceLaw s) : fenceLaw (sendSafeState d s) := by
  unfold sendSafeState
  split
  · have hmark : fenceLaw (s.modFence d fun f => { f with safeSent := true }) := fenceLaw_modFence hs fun hd => hd
    exact fenceLaw_congr rfl hmark
  · exact hs

theorem enterFenced_keepsLaw (hs : fenceLaw s) : fenceLaw (enterFenced d s) :=
  sendSafeState_keepsLaw (fenceLaw_congr (by simp) hs)

theorem fenceArm_keepsLaw (hs : fenceLaw s) : fenceLaw (fenceArm d s) := by
  unfold fenceArm
  split
  · exact hs
  · exact hs
  · exact sendSafeState_keepsLaw hs
  all_goals exact enterFenced_keepsLaw hs

/-- The record that the act of fencing begins with is in step, whatever it was. -/
theorem actOfFencing_keepsLaw (hs : fenceLaw s) : fenceLaw (actOfFencing d s) := by
  have hrecord : fenceLaw (s.modFence d fun f =>
      { f with flag := true, releasePending := false, commanded := some (s.policy d).safeState, safeSent := false }) :=
    fenceLaw_modFence hs fun _ => by simp [InStep]
  unfold actOfFencing
  exact fenceLaw_congr (by simp) (fenceArm_keepsLaw (d := d) hrecord)

/-- A releasing drive is fenced again under the safe state that it still has; any other is fenced by the act (R179). -/
theorem fenceTest_keepsLaw (hs : fenceLaw s) : fenceLaw (fenceTest d s) := by
  unfold fenceTest
  dsimp only
  split
  · split
    · next hr => exact fenceLaw_modFence hs fun hd => by simp [InStep, hd.commanded_of_releasing hr]
    · exact actOfFencing_keepsLaw hs
  · exact hs

/-! The release (R187 to R189). -/

/-- A fenced drive keeps its safe state while its release is awaited. -/
theorem clearFlag_keepsLaw (hf : (s.fence d).flag = true) (hs : fenceLaw s) : fenceLaw (clearFlag d s) :=
  fenceLaw_modFence hs fun hd => by simp [InStep, hd.commanded_of_fenced hf]

theorem autoReleaseTest_keepsLaw (hs : fenceLaw s) : fenceLaw (autoReleaseTest d s) := by
  unfold autoReleaseTest
  dsimp only
  split
  · next h =>
    obtain ⟨hf, -⟩ := h
    exact clearFlag_keepsLaw hf hs
  · exact hs

/-- A drive that is not fenced any more has neither a pending release nor a safe state after its release. -/
theorem releaseRecord_keepsLaw (hf : (s.fence d).flag = false) (hs : fenceLaw s) : fenceLaw (releaseRecord d s) := by
  have hrecord : fenceLaw (s.modFence d fun f =>
      { f with releasePending := false, commanded := none, safeSent := false }) :=
    fenceLaw_modFence hs fun _ => by simp [InStep, hf]
  unfold releaseRecord
  split
  · exact fenceLaw_congr rfl hrecord
  · exact hrecord

theorem releaseFence_keepsLaw (hf : (s.fence d).flag = false) (hs : fenceLaw s) : fenceLaw (releaseFence d s) := by
  have ht := releaseRecord_keepsLaw hf hs
  unfold releaseFence
  dsimp only
  split <;> exact fenceLaw_congr (by simp [applyPolicy_fences]) ht

/-- A recalibration ends in FENCED, in a release, or with the record as it was (R8, R189). -/
theorem recalibrated_keepsLaw (hs : fenceLaw s) : fenceLaw (recalibrated d s) := by
  have ht : fenceLaw (s.modDrive d fun r => { r with recalReason := none }) := fenceLaw_congr (by simp) hs
  unfold recalibrated
  dsimp only
  split
  · exact fenceLaw_congr (by simp) (enterFenced_keepsLaw (d := d) ht)
  · next hf =>
    split
    · exact fenceLaw_congr (by simp) (releaseRecord_keepsLaw (d := d) (by simpa [State.fence] using hf) ht)
    · exact fenceLaw_congr (by simp) ht

theorem indexEvent_keepsLaw (hs : fenceLaw s) : fenceLaw (indexEvent d s) := by
  have ht : fenceLaw (s.modDrive d fun k => { k with indexSeen := true, position := none }) :=
    fenceLaw_congr (by simp) hs
  unfold indexEvent
  dsimp only
  split
  -- NOT_READY (R9)
  · split <;> exact fenceLaw_congr (by simp) hs
  -- RECALIBRATING (R8)
  · split
    · exact recalibrated_keepsLaw ht
    · exact ht
  -- FENCED (R189)
  · split
    · next h =>
      obtain ⟨-, hf, -⟩ := h
      exact releaseFence_keepsLaw hf ht
    · exact ht
  -- any other arm state
  all_goals exact fenceLaw_congr (by simp) ht

/-- The Fence Sources written are evaluated by both tests (R18, R179, R187). -/
theorem writePolicy_keepsLaw {p : Policy} (hs : fenceLaw s) : fenceLaw (writePolicy d p s) := by
  have hsources : fenceLaw (s.modDrive d fun r =>
      { r with policy := { r.policy with fenceSources := p.fenceSources } }) :=
    fenceLaw_congr (by simp) hs
  have htests := autoReleaseTest_keepsLaw (d := d) (fenceTest_keepsLaw (d := d) hsources)
  unfold writePolicy
  dsimp only
  split <;> exact fenceLaw_congr (by simp [applyPolicy_fences]) htests

end
end Sys2Proof.Machine.DriveFencing
end

section
namespace Sys2Proof.Machine.DriveFencing
open Sys2Proof.Machine.Laws

/-! SUPPORT. Every command keeps fence flag, release-pending and commanded safe state in step (R177, R179, R187). -/

section
variable {s : State}

/-- Of all pieces of work, only the fence test changes a Fence Record. -/
theorem runTask_keepsLaw (k : Task) (hs : fenceLaw s) : fenceLaw (runTask k s) := by
  cases k with
  | fenceTest d => exact fenceTest_keepsLaw hs
  | _ => exact fenceLaw_congr (by simp [runTask]) hs

theorem settle_keepsLaw (hs : fenceLaw s) : fenceLaw (settle s) :=
  settle_keeps (fun _ _ hu => hu) (fun k _ hu => runTask_keepsLaw k hu) s hs

/-- The state that a command answers obeys the law of the Fence Records. -/
def LeavesLaw (o : Host.Outcome State Fault Refusal) : Prop := ∀ t, o = .next t → fenceLaw t

/-- A command keeps the law where its effect keeps it. -/
theorem take_leavesLaw {f : State → State} (hf : ∀ u, fenceLaw u → fenceLaw (f u)) (hs : fenceLaw s) :
    LeavesLaw (take s f) :=
  fun _ h => take_keeps (fun _ _ hu => hu) (fun k _ hu => runTask_keepsLaw k hu) hf hs h

/-- A command whose effect leaves the Fence Records alone. -/
theorem take_leavesFences {f : State → State} (hf : ∀ u, (f u).fences = u.fences) (hs : fenceLaw s) :
    LeavesLaw (take s f) :=
  take_leavesLaw (fun u hu => fenceLaw_congr (hf u) hu) hs

section
variable {l : LinkNo} {tag code : Byte} {needsFull lengthOk : Bool} {verdict : State → Verdict}

/-- A management operation keeps the law where its effects keep it; they begin with the Fence Records that its verdict
saw (R193). -/
theorem manage_leavesLaw (hv : ∀ u t, t.fences = u.fences → fenceLaw t → fenceLaw ((verdict u).early t))
    (hs : fenceLaw s) : LeavesLaw (take s (manage l tag code needsFull lengthOk verdict)) := by
  have hchecked : ∀ u t, t.fences = u.fences → fenceLaw t →
      fenceLaw ((checkedVerdict u l needsFull lengthOk verdict).early t) := by
    intro u t hsame ht
    unfold checkedVerdict
    (repeat' split)
    · exact ht
    · exact hv u t hsame ht
    · exact ht
  refine take_leavesLaw (fun u hu => ?_) hs
  unfold manage
  dsimp only
  split
  · exact hu
  · exact hchecked _ _ rfl hu
  · exact hu
  · exact hu

/-- A management operation whose effects leave the Fence Records alone. -/
theorem manage_leavesFences (hv : ∀ u t, ((verdict u).early t).fences = t.fences) (hs : fenceLaw s) :
    LeavesLaw (take s (manage l tag code needsFull lengthOk verdict)) :=
  manage_leavesLaw (fun u t _ ht => fenceLaw_congr (hv u t) ht) hs

end

/-- What the decision on each drive keeps, an operation on a drive keeps. -/
theorem driveVerdict_keepsLaw {operand : List Byte} {decide : DriveNo → Verdict} {t : State} (ht : fenceLaw t)
    (h : ∀ d, fenceLaw ((decide d).early t)) : fenceLaw ((driveVerdict operand decide).early t) := by
  unfold driveVerdict
  split
  · exact h _
  · exact ht

theorem driveVerdict_fences {operand : List Byte} {decide : DriveNo → Verdict} {t : State}
    (h : ∀ d, ((decide d).early t).fences = t.fences) :
    ((driveVerdict operand decide).early t).fences = t.fences := by
  unfold driveVerdict
  split
  · exact h _
  · rfl

theorem trackVerdict_fences {operand : List Byte} {decide : DriveNo → HomeTrack → Verdict} {t : State}
    (h : ∀ d home, ((decide d home).early t).fences = t.fences) :
    ((trackVerdict operand decide).early t).fences = t.fences := by
  unfold trackVerdict
  (repeat' split)
  · exact h _ _
  · rfl
  · rfl

theorem bufferVerdict_fences {operand : List Byte} {decide : BufNo → Verdict} {t : State}
    (h : ∀ b, ((decide b).early t).fences = t.fences) :
    ((bufferVerdict operand decide).early t).fences = t.fences := by
  unfold bufferVerdict
  split
  · exact h _
  · rfl

/-! The commands of which Fence Control has a part. -/

theorem execPolicyWrite_leavesLaw {l : LinkNo} {tag : Byte} {operand : List Byte} (hs : fenceLaw s) :
    LeavesLaw (execPolicyWrite l tag operand s) := by
  refine manage_leavesLaw (fun u t _ ht => ?_) hs
  split
  · exact writePolicy_keepsLaw ht
  · exact ht

/-- FORCED is no part of the law; the fence test is a piece of work of its own (R180). -/
theorem execFenceForce_leavesLaw {l : LinkNo} {tag : Byte} {operand : List Byte} (hs : fenceLaw s) :
    LeavesLaw (execFenceForce l tag operand s) := by
  refine manage_leavesLaw (fun u t _ ht => driveVerdict_keepsLaw ht fun d => ?_) hs
  exact fenceLaw_modFence ht fun hd => hd

/-- An accepted FENCE-CLEAR finds the fence flag set (R188). -/
theorem execFenceClear_leavesLaw {l : LinkNo} {tag : Byte} {operand : List Byte} (hs : fenceLaw s) :
    LeavesLaw (execFenceClear l tag operand s) := by
  refine manage_leavesLaw (fun u t hsame ht => driveVerdict_keepsLaw ht fun d => ?_) hs
  split
  · exact ht
  · next hf =>
    split
    · exact ht
    · have hflag : (t.fence d).flag = true := by
        rw [State.fence, hsame]
        exact Bool.eq_true_of_not_eq_false hf
      exact clearFlag_keepsLaw (by simpa using hflag) (fenceLaw_modFence ht fun hd => hd)

theorem execConditionRaised_leavesLaw {d : DriveNo} {c : DriveCondition} (hs : fenceLaw s) :
    LeavesLaw (execConditionRaised d c s) := by
  refine take_leavesLaw (fun u hu => ?_) hs
  dsimp only
  split
  · exact hu
  · have hjoined : fenceLaw (u.modFence d fun f => { f with causes := f.causes.with c true }) :=
      fenceLaw_modFence hu fun hd => hd
    have ht := fenceTest_keepsLaw (d := d) hjoined
    split
    · exact fenceLaw_congr (by simp) ht
    · exact ht

theorem execConditionCleared_leavesLaw {d : DriveNo} {c : DriveCondition} (hs : fenceLaw s) :
    LeavesLaw (execConditionCleared d c s) := by
  refine take_leavesLaw (fun u hu => ?_) hs
  split
  · exact autoReleaseTest_keepsLaw (fenceLaw_modFence hu fun hd => hd)
  · exact hu

/-- An INDEX may be the event that ends a pass (log 8). -/
theorem execPassEnd_leavesLaw {d : DriveNo} {e : PassCloser} (hs : fenceLaw s) : LeavesLaw (execPassEnd d e s) := by
  refine take_leavesLaw (fun u hu => ?_) hs
  split
  · split
    · exact fenceLaw_congr (by simp) hu
    · exact fenceLaw_congr (by simp) hu
    · exact indexEvent_keepsLaw hu
  · exact hu

/-- No drive is fenced or releasing after power-on (R177). -/
theorem fenceLaw_reset : fenceLaw State.reset := by
  rw [fenceLaw_iff]
  intro d
  have hd : State.reset.fence d = Fence.powerOn := by simp [State.fence, State.reset, Vector.get_eq_getElem]
  rw [hd]
  simp [InStep, Fence.powerOn]

theorem execPowerOnClear_leavesLaw (s : State) : LeavesLaw (execPowerOnClear s) := by
  rintro _ ⟨⟩
  exact fenceLaw_congr rfl fenceLaw_reset

/-- Every command keeps the law. -/
theorem exec_leavesLaw (c : Instr) (hs : fenceLaw s) : LeavesLaw (exec c s) := by
  cases c with
  | policyWrite l tag operand => exact execPolicyWrite_leavesLaw hs
  | fenceForce l tag operand => exact execFenceForce_leavesLaw hs
  | fenceClear l tag operand => exact execFenceClear_leavesLaw hs
  | conditionRaised d c => exact execConditionRaised_leavesLaw hs
  | conditionCleared d c => exact execConditionCleared_leavesLaw hs
  | index d => exact take_leavesLaw (fun u hu => indexEvent_keepsLaw hu) hs
  | passEnd d e => exact execPassEnd_leavesLaw hs
  | powerOnClear => exact execPowerOnClear_leavesLaw s
  | powerOnClearAsserted =>
    rintro _ ⟨⟩
    exact hs
  | commandFrame l unit tag notify count body =>
    change LeavesLaw (execCommandFrame l unit tag notify count body s)
    exact take_leavesFences (fun u => by split <;> simp) hs
  | dataFrame l tag sector data =>
    change LeavesLaw (execDataFrame l tag sector data s)
    exact take_leavesFences (fun u => by dsimp only; (repeat' split) <;> simp) hs
  | accept l =>
    change LeavesLaw (execAccept l s)
    exact take_leavesFences (fun u => by dsimp only; (repeat' split) <;> simp) hs
  | defer | offerTimeout | seekTimeout | seekDone | sector | sectorResult =>
    exact take_leavesFences (fun u => by simp) hs
  | resume l =>
    change LeavesLaw (execResume l s)
    exact take_leavesFences (fun u => by split <;> simp) hs
  | halt l tag =>
    change LeavesLaw (execHalt l tag s)
    exact take_leavesFences (fun u => by dsimp only; (repeat' split) <;> simp) hs
  | linkReset l =>
    change LeavesLaw (execLinkReset l s)
    exact take_leavesFences (fun u => by split <;> simp) hs
  | linkDown l =>
    change LeavesLaw (execLinkDown l s)
    exact take_leavesFences (s := setLine l false s) (fun u => by split <;> simp) hs
  | linkUp l =>
    change LeavesLaw (execLinkUp l s)
    exact take_leavesFences (s := setLine l true s) (fun u => by split <;> simp) hs
  | frameCheckFailure l frame => exact take_leavesFences (fun _ => rfl) hs
  | manageInvalid | bufferRead | captureRead => exact manage_leavesFences (fun _ _ => rfl) hs
  | attach l tag operand turned =>
    have ht : fenceLaw (turnSwitches turned s) := fenceLaw_congr (turnSwitches_fences s turned) hs
    exact manage_leavesFences (fun u t => by unfold attachVerdict; (repeat' split) <;> rfl) ht
  | statusRead l tag operand => exact manage_leavesFences (fun u t => by split <;> rfl) hs
  | mapRead l tag operand =>
    exact manage_leavesFences (fun u t => by unfold mapReadVerdict; dsimp only; (repeat' split) <;> rfl) hs
  | suspectRead l tag operand =>
    exact manage_leavesFences (fun u t => by unfold suspectReadVerdict; dsimp only; (repeat' split) <;> rfl) hs
  | priorityWrite | pathWrite | mapLoad | forceRelease =>
    exact manage_leavesFences (fun u t => by (repeat' split) <;> simp [accept, refuse]) hs
  | mapBegin | mapCommit | fencePurge =>
    exact manage_leavesFences
      (fun u t => driveVerdict_fences fun d => by (repeat' split) <;> simp [accept, refuse]) hs
  | relocate | suspectRemove =>
    exact manage_leavesFences
      (fun u t => trackVerdict_fences fun d h => by (repeat' split) <;> simp [accept, refuse]) hs
  | suspectPlace l tag operand =>
    exact manage_leavesFences (fun u t => trackVerdict_fences fun d h => by
      unfold placeVerdict
      (repeat' split) <;> simp [accept, refuse]) hs
  | bufferDiscard | parityForce =>
    exact manage_leavesFences
      (fun u t => bufferVerdict_fences fun b => by (repeat' split) <;> simp [accept, refuse]) hs
  | controllerReset l tag operand => exact manage_leavesFences (fun u t => resetController_fences t) hs
  | dataTimeout l =>
    change LeavesLaw (execDataTimeout l s)
    exact take_leavesFences (fun u => by (repeat' split) <;> simp [endChain_fences]) hs
  | recalibrateTimeout d =>
    change LeavesLaw (execRecalibrateTimeout d s)
    exact take_leavesFences (fun u => by split <;> simp) hs
  | ready d =>
    change LeavesLaw (execReady d s)
    exact take_leavesFences (fun u => by split <;> simp) hs
  | notReady d =>
    change LeavesLaw (execNotReady d s)
    exact take_leavesFences (fun u => by split <;> simp) hs
  | recalDone d good =>
    change LeavesLaw (execRecalDone d good s)
    exact take_leavesFences (fun u => by (repeat' split) <;> simp) hs
  | settleEnd d =>
    change LeavesLaw (execSettleEnd d s)
    exact take_leavesFences (fun u => by (repeat' split) <;> simp) hs
  | deliveryFrame l =>
    change LeavesLaw (execDeliveryFrame l s)
    exact take_leavesFences (fun u => by dsimp only; (repeat' split) <;> simp) hs

end

/-- Settles O9: the law survives every command, and the work that an idle step may find left over. -/
theorem fenceLawKept : Obligations.FenceLawKept := by
  intro s t hs h
  unfold step at h
  split at h
  · cases h
    exact settle_keepsLaw hs
  · next c rest _ => exact exec_leavesLaw (s := { s with pending := rest }) c hs t h

end Sys2Proof.Machine.DriveFencing
end

section
namespace Sys2Proof.Machine.DriveFencing
open Sys2Proof.Machine.Laws Sys2Proof.Machine.DriveString Sys2Proof.Machine.ChainControl

/-! SUPPORT. The fence test and the Auto-Release test by what they find, and the act of fencing where the arm serves
nothing (R179, R182, R187). -/

section
variable {d : DriveNo} {s : State}

/-- Two changes of one Fence Record are one change. -/
theorem modFence_modFence (d : DriveNo) (f g : Fence → Fence) (s : State) :
    (s.modFence d f).modFence d g = s.modFence d fun r => g (f r) := by
  simp [State.modFence]

/-- A change of a Fence Record is what it does to the record as it stands. -/
theorem modFence_congr {f g : Fence → Fence} (h : f (s.fence d) = g (s.fence d)) :
    s.modFence d f = s.modFence d g := by
  have h' : f (s.fences.get d) = g (s.fences.get d) := h
  simp only [State.modFence, change, h']

/-! The tests. -/

/-- A releasing drive is fenced again, without an act of fencing (R179). -/
theorem fenceTest_again (hf : (s.fence d).flag = false) (hc : selectedCause s d = true ∨ (s.fence d).forced = true)
    (hr : (s.fence d).releasePending = true) :
    fenceTest d s = s.modFence d fun f => { f with flag := true, releasePending := false } := by
  simp only [fenceTest, if_pos (And.intro hf hc), if_pos hr]

theorem fenceTest_acts (hf : (s.fence d).flag = false) (hc : selectedCause s d = true ∨ (s.fence d).forced = true)
    (hr : (s.fence d).releasePending = false) : fenceTest d s = actOfFencing d s := by
  simp only [fenceTest, if_pos (And.intro hf hc), hr, Bool.false_eq_true, if_false]

theorem autoReleaseTest_releases (hf : (s.fence d).flag = true) (ha : (s.policy d).autoRelease = true)
    (hc : selectedCause s d = false) (hn : (s.fence d).forced = false) : autoReleaseTest d s = clearFlag d s :=
  if_pos ⟨hf, ha, hc, hn⟩

/-! The act of fencing. -/

/-- The record of a drive under an act of fencing (R182); `sent` says whether SAFE-STATE has gone out (log 36). -/
def fencedRecord (d : DriveNo) (sent : Bool) (s : State) : State :=
  s.modFence d fun f =>
    { f with flag := true, releasePending := false, commanded := some (s.policy d).safeState, safeSent := sent }

/-- A drive with a FENCED arm whose record has been written (R182, R183). -/
def enteredFenced (d : DriveNo) (s : State) : State :=
  ((armCleared d (fencedRecord d true s)).setArm d .fenced).order d (.safeState (s.policy d).safeState)

/-- Only a TRANSFERRING drive runs a pass. -/
theorem passOf_none (ha : (s.drive d).arm ≠ .transferring) : passOf s d = none := if_neg ha

theorem cutPass_none (ha : (s.drive d).arm ≠ .transferring) : cutPass d s = clearGrant d s := by
  simp only [cutPass, passOf_none ha]

theorem sendSafeState_some {k : SafeState} (hk : (s.fence d).commanded = some k) :
    sendSafeState d s = (s.modFence d fun f => { f with safeSent := true }).order d (.safeState k) := by
  simp only [sendSafeState, hk]

/-- An arm outside a pass enters FENCED: its selection, grant and booking go, and SAFE-STATE goes out. -/
theorem enterFenced_moving {k : SafeState} (ha : (s.drive d).arm ≠ .transferring)
    (hk : (s.fence d).commanded = some k) :
    enterFenced d s = ((armCleared d (s.modFence d fun f => { f with safeSent := true })).setArm d .fenced).order d
      (.safeState k) := by
  have hcommanded : (((dropSelection d (clearGrant d s)).setArm d .fenced).fence d).commanded = some k := by
    simpa [State.fence] using hk
  rw [enterFenced, cutPass_none ha, sendSafeState_some hcommanded]
  rfl

/-- The same at an act of fencing, whose record commands the policy's safe state. -/
theorem enterFenced_fencedRecord (ha : (s.drive d).arm ≠ .transferring) :
    enterFenced d (fencedRecord d false s) = enteredFenced d s := by
  have hk : ((fencedRecord d false s).fence d).commanded = some (s.policy d).safeState := by simp [fencedRecord]
  have hsent : (fencedRecord d false s).modFence d (fun f => { f with safeSent := true }) = fencedRecord d true s :=
    modFence_modFence ..
  rw [enterFenced_moving (s := fencedRecord d false s) ha hk, hsent, enteredFenced]

theorem actOfFencing_notReady (ha : (s.drive d).arm = .notReady) (hs : (s.sched d).selection = none) :
    actOfFencing d s = (raiseDrive d (.driveFenced d) (fencedRecord d false s)).later [.abandon d] := by
  have harm : fenceArm d (fencedRecord d false s) = fencedRecord d false s := by
    have ha' : ((fencedRecord d false s).drive d).arm = .notReady := ha
    simp only [fenceArm, ha']
  unfold actOfFencing
  rw [hs]
  exact congrArg (fun t => (raiseDrive d (.driveFenced d) t).later [.abandon d]) harm

theorem actOfFencing_idle (ha : (s.drive d).arm = .idle) (hs : (s.sched d).selection = none) :
    actOfFencing d s = (raiseDrive d (.driveFenced d) (enteredFenced d s)).later [.abandon d] := by
  have harm : fenceArm d (fencedRecord d false s) = enteredFenced d s := by
    have ha' : ((fencedRecord d false s).drive d).arm = .idle := ha
    simp only [fenceArm, ha']
    exact enterFenced_fencedRecord (by simp [ha])
  unfold actOfFencing
  rw [hs]
  exact congrArg (fun t => (raiseDrive d (.driveFenced d) t).later [.abandon d]) harm

/-- What the act of fencing leaves alone, DRIVE-FENCED raised. -/
theorem raiseDrive_fencedRecord_keeps (sent : Bool) :
    (raiseDrive d (.driveFenced d) (fencedRecord d sent s)).work = s.work ∧
    (raiseDrive d (.driveFenced d) (fencedRecord d sent s)).track d = s.track d := by
  simp [State.track, fencedRecord]

theorem raiseDrive_enteredFenced_keeps :
    (raiseDrive d (.driveFenced d) (enteredFenced d s)).work = s.work ∧
    (raiseDrive d (.driveFenced d) (enteredFenced d s)).track d = s.track d := by
  simp [State.track, enteredFenced, armCleared, fencedRecord]

/-- A drive with no relocation has none to abandon (R184). -/
theorem drain_abandon {n : Nat} {t : State} (hw : t.work = []) (hr : (t.track d).reloc = none) :
    drain (n + 2) [.abandon d] t = t :=
  drain_does (k := .abandon d) (abandon_none hr) hw rfl

end
end Sys2Proof.Machine.DriveFencing
end

section
namespace Sys2Proof.Machine.DriveFencing
open Sys2Proof.Machine.Laws Sys2Proof.Machine.DriveString Sys2Proof.Machine.ChainControl
open Sys2Proof.Machine.AlternateTracks Sys2Proof.Machine.TrackBuffers

/-! SUPPORT. FENCE-FORCE, FENCE-CLEAR and FENCE-PURGE (R180, R188, R191). -/

section
variable {l : LinkNo} {d : DriveNo} {tag code : Byte} {s : State}

/-- A management frame on an IDLE link of FULL authority whose operation has a piece of work that follows the link's
choice (R193, R54; log 18). -/
theorem take_accepts_late {verdict : State → Verdict} {early : State → State} {k : Task} {ts : List Task}
    {u v t : State} (h : atFull l s) (hv : verdict (floorZero l s) = accept early [k])
    (hu : early (accepted l code s) = u) (hw : u.work = []) (hk : runTask k (choose l u) = v.later ts)
    (hvw : v.work = []) (ht : drain 4094 ts v = t) : take s (manage l tag code true true verdict) = .next t := by
  subst hu
  obtain ⟨⟨hs, -⟩, -⟩ := id h
  refine (take_later hs (manage_decides h hv) hw).trans (congrArg _ ?_)
  refine drain_does (k := .choose l) rfl (choose_work hw) (drain_hands (ks := []) hk hvw ?_)
  rwa [List.append_nil]

/-- An operation that needs FULL authority is refused to any other link (R193, R194). -/
theorem take_unauthorized {verdict : State → Verdict} (lengthOk : Bool) (h : atIdle l s)
    (ha : (s.auth.get l).full = false) :
    take s (manage l tag code true lengthOk verdict) =
      .next (choose l (answered l code (.refused .authority none) s)) := by
  obtain ⟨hs, hp⟩ := h
  obtain ⟨-, hw⟩ := id hs
  have hauth : ((floorZero l s).auth.get l).full = false := ha
  have hm : manage l tag code true lengthOk verdict s =
      (answered l code (.refused .authority none) s).later [.choose l] := by
    simp only [manage, hp]
    rw [show setFloor l 0 s = floorZero l s from rfl]
    simp only [checkedVerdict, hauth, Bool.not_false, Bool.and_self, if_true]
    rfl
  exact take_single hs hm hw rfl (choose_work hw)

theorem readDrive_none {a : Byte} (ha : 8 ≤ a.toNat) : readDrive a = none := dif_neg (by omega)

/-! FENCE-FORCE (R180). -/

/-- FORCED is present. -/
def forces (d : DriveNo) (s : State) : State := s.modFence d fun f => { f with forced := true }

/-- The drive as the fence test of FENCE-FORCE finds it: after the answer and the link's choice (log 18). -/
def forceTested (l : LinkNo) (d : DriveNo) (s : State) : State := choose l (forces d (accepted l 16#8 s))

theorem fence_forceTested (l : LinkNo) (d : DriveNo) (s : State) :
    (forceTested l d s).fence d = { s.fence d with forced := true } := by
  have hsame : (forceTested l d s).fence d = (forces d (accepted l 16#8 s)).fence d := by
    simp only [forceTested, State.fence, choose_keeps]
  have hbefore : (accepted l 16#8 s).fence d = s.fence d := rfl
  rw [hsame, forces, fence_modFence, if_pos rfl, hbefore]

/-- Answer and choice leave the drive's record, its arm's work and its tracks alone. -/
@[simp] theorem forceTested_keeps (l : LinkNo) (d : DriveNo) (s : State) :
    (forceTested l d s).drives = s.drives ∧ (forceTested l d s).scheds = s.scheds ∧
    (forceTested l d s).tracks = s.tracks ∧ (forceTested l d s).work = s.work := by
  simp [forceTested, forces, accepted, answered, floorZero]

theorem exec_fenceForce {ts : List Task} {v t : State} (h : atFull l s)
    (hk : fenceTest d (forceTested l d s) = v.later ts) (hw : v.work = []) (ht : drain 4094 ts v = t) :
    exec (.fenceForce l tag [byteOf d.val]) s = .next t := by
  have hwork : s.work = [] := atIdle_work h.1
  change execFenceForce l tag [byteOf d.val] s = _
  refine take_accepts_late (early := forces d) (k := .fenceTest d) h ?_ rfl hwork hk hw ht
  simp only [driveVerdict, List.head?_cons, Option.bind_some, readDrive_byteOf]
  rfl

/-- A FENCE-FORCE whose fence test hands on nothing. -/
theorem exec_fenceForce_quiet {t : State} (h : atFull l s) (hk : fenceTest d (forceTested l d s) = t)
    (hw : t.work = []) : exec (.fenceForce l tag [byteOf d.val]) s = .next t :=
  exec_fenceForce (ts := []) h (hk.trans (later_nil t).symm) hw rfl

/-- A FENCE-FORCE whose fence test is an act of fencing, on a drive without a relocation. -/
theorem exec_fenceForce_acts {t : State} (h : atFull l s) (hf : (s.fence d).flag = false)
    (hr : (s.fence d).releasePending = false) (hk : actOfFencing d (forceTested l d s) = t.later [.abandon d])
    (hw : t.work = []) (hreloc : (t.track d).reloc = none) :
    exec (.fenceForce l tag [byteOf d.val]) s = .next t := by
  have htest : fenceTest d (forceTested l d s) = actOfFencing d (forceTested l d s) :=
    fenceTest_acts (by simpa [fence_forceTested] using hf) (.inr (by simp [fence_forceTested]))
      (by simpa [fence_forceTested] using hr)
  exact exec_fenceForce h (htest.trans hk) hw (drain_abandon (n := 4092) hw hreloc)

/-- The record that the act of fencing leaves where no release is pending. -/
theorem fencedRecord_forceTested (sent : Bool) (hr : (s.fence d).releasePending = false) :
    fencedRecord d sent (forceTested l d s) = (forceTested l d s).modFence d fun f =>
      { f with flag := true, commanded := some (s.policy d).safeState, safeSent := sent } := by
  have hp : (forceTested l d s).policy d = s.policy d := by simp [State.policy, State.drive]
  refine modFence_congr ?_
  simp [fence_forceTested, hp, hr]

/-- Settles O41: the fence test that follows the choice finds FORCED present, and the record and the arm decide. -/
theorem fenceForce : Obligations.FenceForce := by
  intro l d tag s hs
  have hw : (forceTested l d s).work = [] := by simpa using atIdle_work hs.1
  refine ⟨fun hf => ?_, fun hf hr => ?_, fun hf hr ha hsel hreloc => ?_, fun hf hr ha hsel hreloc => ?_⟩
  · exact exec_fenceForce_quiet hs (fenceTest_none (by simp [fence_forceTested, hf])) hw
  · refine exec_fenceForce_quiet hs (fenceTest_again ?_ (.inr ?_) ?_) hw
    · simpa [fence_forceTested] using hf
    · simp [fence_forceTested]
    · simpa [fence_forceTested] using hr
  · obtain ⟨hkw, hkt⟩ := raiseDrive_fencedRecord_keeps (d := d) (s := forceTested l d s) false
    have hact := actOfFencing_notReady (d := d) (s := forceTested l d s) (by simpa [State.drive] using ha)
      (by simpa [State.sched] using hsel)
    have hexec := exec_fenceForce_acts (tag := tag) hs hf hr hact (hkw.trans hw)
      (by rw [hkt]; simpa [State.track] using hreloc)
    rwa [fencedRecord_forceTested false hr] at hexec
  · obtain ⟨hkw, hkt⟩ := raiseDrive_enteredFenced_keeps (d := d) (s := forceTested l d s)
    have hact := actOfFencing_idle (d := d) (s := forceTested l d s) (by simpa [State.drive] using ha)
      (by simpa [State.sched] using hsel)
    have hexec := exec_fenceForce_acts (tag := tag) hs hf hr hact (hkw.trans hw)
      (by rw [hkt]; simpa [State.track] using hreloc)
    have hp : (forceTested l d s).policy d = s.policy d := by simp [State.policy, State.drive]
    rwa [enteredFenced, fencedRecord_forceTested true hr, hp] at hexec

/-! FENCE-CLEAR (R188). -/

/-- The decision of FENCE-CLEAR on a drive. -/
def clearVerdict (d : DriveNo) (s : State) : Verdict :=
  if (s.fence d).flag = false then refuse .state
  else if selectedCause s d then refuse .fenceCausePresent
  else accept (fun t => clearFlag d (t.modFence d fun f => { f with forced := false })) []

theorem execFenceClear_eq :
    execFenceClear l tag [byteOf d.val] s = take s (manage l tag 17#8 true true (clearVerdict d)) := by
  simp only [execFenceClear, driveVerdict, List.head?_cons, Option.bind_some, readDrive_byteOf]
  rfl

/-- Settles O42: authority, then the operand, then the flag, then the causes. -/
theorem fenceClear : Obligations.FenceClear := by
  intro l tag s hs
  have hw : s.work = [] := atIdle_work hs
  refine ⟨fun hauth a => take_unauthorized _ hs hauth, fun hauth => ⟨fun a ha => ?_, fun d =>
    ⟨fun hf => ?_, fun hf hp => ?_, fun hf hp => ?_⟩⟩⟩
  · change execFenceClear l tag [a] s = _
    refine take_refuses ⟨hs, hauth⟩ ?_
    simp only [driveVerdict, List.head?_cons, Option.bind_some, readDrive_none ha]
    rfl
  · exact execFenceClear_eq.trans (take_refuses ⟨hs, hauth⟩ (if_pos hf))
  · have hflag : ¬((floorZero l s).fence d).flag = false := ne_false_of_eq_true hf
    exact execFenceClear_eq.trans (take_refuses ⟨hs, hauth⟩ ((if_neg hflag).trans (if_pos hp)))
  · have hflag : ¬((floorZero l s).fence d).flag = false := ne_false_of_eq_true hf
    have hcause : ¬selectedCause (floorZero l s) d = true := ne_true_of_eq_false hp
    exact execFenceClear_eq.trans (take_accepts ⟨hs, hauth⟩ ((if_neg hflag).trans (if_neg hcause))
      (modFence_modFence ..) hw)

/-! FENCE-PURGE (R191). -/

/-- The decision of FENCE-PURGE on a drive. -/
def purgeVerdict (d : DriveNo) (s : State) : Verdict :=
  if (s.fence d).flag = false then refuse .state else accept id [.purge d]

theorem execFencePurge_eq :
    execFencePurge l tag [byteOf d.val] s = take s (manage l tag 18#8 true true (purgeVerdict d)) := by
  simp only [execFencePurge, driveVerdict, List.head?_cons, Option.bind_some, readDrive_byteOf]
  rfl

/-- An accepted FENCE-PURGE: the purge is the work that follows the link's choice (log 18). -/
theorem exec_fencePurge {ts : List Task} {v t : State} (h : atFull l s) (hf : (s.fence d).flag = true)
    (hk : purge d (choose l (accepted l 18#8 s)) = v.later ts) (hw : v.work = []) (ht : drain 4094 ts v = t) :
    exec (.fencePurge l tag [byteOf d.val]) s = .next t := by
  have hflag : ¬((floorZero l s).fence d).flag = false := ne_false_of_eq_true hf
  have hwork : s.work = [] := atIdle_work h.1
  exact execFencePurge_eq.trans
    (take_accepts_late (early := id) (k := .purge d) h (if_neg hflag) rfl hwork hk hw ht)

/-- A chain that FENCE-PURGE ends: held, QUEUED or in the flush wait (R191). -/
theorem held_iff (d : DriveNo) (x : Context) :
    (x.drive == d && (x.state == .queued || x.state == .waitStore .flush)) = true ↔
      x.drive = d ∧ (x.state = .queued ∨ x.state = .waitStore .flush) := by
  simp

theorem purge_none
    (h : ∀ c x, s.ctx c = some x → x.drive = d → ¬(x.state = .queued ∨ x.state = .waitStore .flush)) :
    purge d s = s := by
  have hn : (ctxsWhere s fun x => x.drive == d && (x.state == .queued || x.state == .waitStore .flush)) = [] :=
    ctxsWhere_none fun c x hx => Bool.eq_false_iff.mpr fun ht => by
      obtain ⟨hd, hheld⟩ := (held_iff d x).mp ht
      exact h c x hx hd hheld
  rw [purge, hn, each_nil]

/-- The drive's one held chain goes through the first steps of its ending, DRIVE-FENCED at its current entry. -/
theorem purge_single {c : CtxNo} {x : Context} (hx : s.ctx c = some x) (hd : x.drive = d)
    (hheld : x.state = .queued ∨ x.state = .waitStore .flush)
    (hu : ∀ k y, s.ctx k = some y → y.drive = d → y.state = .queued ∨ y.state = .waitStore .flush → k = c) :
    purge d s = (beginEnding c .driveFenced none [] id s).later [.unpin c, .raiseEnding c] := by
  have hone : (ctxsWhere s fun x => x.drive == d && (x.state == .queued || x.state == .waitStore .flush)) = [c] :=
    ctxsWhere_single hx ((held_iff d x).mpr ⟨hd, hheld⟩) fun k y hy hp => by
      obtain ⟨hyd, hyheld⟩ := (held_iff d y).mp hp
      exact hu k y hy hyd hyheld
  have hlive : x.leaves = false := by rcases hheld with h | h <;> simp [Context.leaves, h]
  rw [purge, hone, each_cons, each_nil]
  exact endChain_of_live _ _ _ _ hx hlive

/-- Settles O43: the purge follows the choice, and finds no held chain or one, which leaves the queue or the wait. -/
theorem fencePurge : Obligations.FencePurge := by
  intro l d tag s hs
  have hwork : s.work = [] := atIdle_work hs.1
  have hw : (choose l (accepted l 18#8 s)).work = [] := choose_work hwork
  have hctx : ∀ k, (choose l (accepted l 18#8 s)).ctx k = s.ctx k := fun k => by
    simp only [State.ctx, choose_keeps]
    rfl
  refine ⟨fun hf => execFencePurge_eq.trans (take_refuses hs (if_pos hf)), fun hf hnone => ?_,
    fun c x hf hx hd hp honly => ?_⟩
  · have hquiet : purge d (choose l (accepted l 18#8 s)) = choose l (accepted l 18#8 s) :=
      purge_none fun c x hx => hnone c x ((hctx c).symm.trans hx)
    exact exec_fencePurge (ts := []) hs hf (hquiet.trans (later_nil _).symm) hw rfl
  have hx' := (hctx c).trans hx
  have hp' : pinnedByOther c x (choose l (accepted l 18#8 s)) := by simpa only [pinnedByOther, hctx] using hp
  have hone := fun hheld => purge_single (s := choose l (accepted l 18#8 s)) hx' hd hheld fun k y hy =>
    honly k y ((hctx k).symm.trans hy)
  refine ⟨fun hst => ?_, fun hst => ?_⟩
  · have hpurge := hone (.inl hst)
    rw [beginEnding_queued none [] id hx' (by decide) hst, hd] at hpurge
    exact exec_fencePurge hs hf hpurge hw (drain_ends (n := 4091) hw rfl hp')
  · have hpurge := hone (.inr hst)
    rw [beginEnding_waiting none [] id hx' (by decide) hst] at hpurge
    exact exec_fencePurge hs hf hpurge hw (drain_ends (n := 4091) hw rfl hp')

end
end Sys2Proof.Machine.DriveFencing
end

section
namespace Sys2Proof.Machine.DriveFencing
open Sys2Proof.Machine.Laws Sys2Proof.Machine.DriveString

/-! SUPPORT. CONDITION_RAISED and CONDITION_CLEARED (R114, R178, R179, R187). -/

section
variable {d : DriveNo} {c : DriveCondition} {s : State}

/-- A condition joins the causes (R178). -/
def raisesCause (d : DriveNo) (c : DriveCondition) (s : State) : State :=
  s.modFence d fun f => { f with causes := f.causes.with c true }

/-- A condition leaves the causes (R178). -/
def clearsCause (d : DriveNo) (c : DriveCondition) (s : State) : State :=
  s.modFence d fun f => { f with causes := f.causes.with c false }

@[simp] theorem fence_raisesCause (d : DriveNo) (c : DriveCondition) (s : State) :
    (raisesCause d c s).fence d = { s.fence d with causes := (s.fence d).causes.with c true } := by
  simp [raisesCause]

@[simp] theorem fence_clearsCause (d : DriveNo) (c : DriveCondition) (s : State) :
    (clearsCause d c s).fence d = { s.fence d with causes := (s.fence d).causes.with c false } := by
  simp [clearsCause]

theorem selectedCause_raisesCause :
    selectedCause (raisesCause d c s) d = ((s.fence d).causes.with c true).meets (s.policy d).fenceSources := by
  rw [selectedCause, fence_raisesCause]
  rfl

theorem selectedCause_clearsCause :
    selectedCause (clearsCause d c s) d = ((s.fence d).causes.with c false).meets (s.policy d).fenceSources := by
  rw [selectedCause, fence_clearsCause]
  rfl

/-- A Fence Source that is present is a selected cause (R177). -/
theorem meets_with {k src : CauseSet} (h : src.has c = true) : (k.with c true).meets src = true := by
  cases c <;> simp_all [CauseSet.has, CauseSet.with, CauseSet.meets]

/-- A WRITE-FAULT stops only a pass (R114). -/
theorem faultOnPass_none (ha : (s.drive d).arm ≠ .transferring) : faultOnPass d s = s := by
  simp only [faultOnPass, passOf_none ha]

/-- What CONDITION_RAISED does with a condition that is not present. -/
theorem exec_conditionRaised {t : State} (hs : calm s) (hn : (s.fence d).causes.has c = false)
    (ht : fenceTest d (raisesCause d c s) = t) (ha : c = .writeFault → (t.drive d).arm ≠ .transferring) :
    exec (.conditionRaised d c) s = .next (settle t) := by
  obtain ⟨hc, hw⟩ := hs
  change execConditionRaised d c s = _
  refine (take_calm s _ hc hw).trans (congrArg (Host.Outcome.next ∘ settle) ?_)
  have hjoins : fenceTest d (s.modFence d fun f => { f with causes := f.causes.with c true }) = t := ht
  simp only [hn, Bool.false_eq_true, if_false, hjoins]
  split
  · next hfault => exact faultOnPass_none (ha hfault)
  · rfl

/-- What CONDITION_CLEARED does with a condition that is present. -/
theorem exec_conditionCleared {t : State} (hs : calm s) (hp : (s.fence d).causes.has c = true)
    (ht : autoReleaseTest d (clearsCause d c s) = t) (hw : t.work = []) :
    exec (.conditionCleared d c) s = .next t := by
  change execConditionCleared d c s = _
  exact take_effect hs ((if_pos hp).trans ht) hw

/-- A condition that does not fence the drive joins the causes (R178, R179). -/
theorem conditionRaised_joins (hs : calm s) (hn : (s.fence d).causes.has c = false)
    (hq : (s.fence d).flag = true ∨
      (((s.fence d).causes.with c true).meets (s.policy d).fenceSources = false ∧ (s.fence d).forced = false))
    (ha : c = .writeFault → (s.drive d).arm ≠ .transferring) :
    exec (.conditionRaised d c) s = .next (raisesCause d c s) := by
  have htest : fenceTest d (raisesCause d c s) = raisesCause d c s := by
    refine fenceTest_none fun hf => ?_
    rw [selectedCause_raisesCause, fence_raisesCause]
    have hflag : (s.fence d).flag = false := by simpa using hf
    exact hq.resolve_left (by simp [hflag])
  have hw : (raisesCause d c s).work = [] := hs.2
  rw [exec_conditionRaised hs hn htest ha, settle_calm _ hw]

/-- A Fence Source fences an IDLE drive (R179, R182). -/
theorem conditionRaised_fences (hs : calm s) (hn : (s.fence d).causes.has c = false) (hf : (s.fence d).flag = false)
    (hr : (s.fence d).releasePending = false) (hsrc : (s.policy d).fenceSources.has c = true)
    (ha : (s.drive d).arm = .idle) (hsel : (s.sched d).selection = none) (hreloc : (s.track d).reloc = none) :
    exec (.conditionRaised d c) s = .next (raiseDrive d (.driveFenced d) (enteredFenced d (raisesCause d c s))) := by
  obtain ⟨hkw, hkt⟩ := raiseDrive_enteredFenced_keeps (d := d) (s := raisesCause d c s)
  have hw : (raiseDrive d (.driveFenced d) (enteredFenced d (raisesCause d c s))).work = [] := hkw.trans hs.2
  have htest : fenceTest d (raisesCause d c s) =
      (raiseDrive d (.driveFenced d) (enteredFenced d (raisesCause d c s))).later [.abandon d] :=
    (fenceTest_acts (by simpa using hf) (.inl (selectedCause_raisesCause.trans (meets_with hsrc)))
      (by simpa using hr)).trans (actOfFencing_idle ha hsel)
  have harm : (((raiseDrive d (.driveFenced d) (enteredFenced d (raisesCause d c s))).later
      [.abandon d]).drive d).arm = .fenced := by
    simp [State.drive, enteredFenced]
  have hgone : abandon d (raiseDrive d (.driveFenced d) (enteredFenced d (raisesCause d c s))) = _ :=
    abandon_none (by rw [hkt]; exact hreloc)
  have hsettle := settle_single _ (.abandon d) hw ((congrArg State.work hgone).trans hw)
  rw [exec_conditionRaised hs hn htest fun _ => by simp [harm], hsettle]
  exact congrArg _ hgone

/-- Settles O55: a condition that changes the causes is followed by the fence test, or by the Auto-Release test. -/
theorem conditionsKept : Obligations.ConditionsKept := by
  refine ⟨fun d c s hs => ⟨fun hp => ?_, fun hn => ?_, conditionRaised_joins hs, fun hp => ⟨fun hrel => ?_,
    fun hkeep => ?_⟩⟩, fun d c s hs hn hf hr hsrc ha hsel hreloc => ?_⟩
  · change execConditionRaised d c s = _
    exact take_effect hs (if_pos hp) hs.2
  · change execConditionCleared d c s = _
    exact take_effect hs (if_neg (ne_true_of_eq_false hn)) hs.2
  · obtain ⟨hf, ha, hc, hforced⟩ := hrel
    have htest := autoReleaseTest_releases (s := clearsCause d c s) (by simpa using hf) ha
      (selectedCause_clearsCause.trans hc) (by simpa using hforced)
    exact exec_conditionCleared hs hp (htest.trans (modFence_modFence ..)) hs.2
  · refine exec_conditionCleared hs hp (autoReleaseTest_none fun hf => ?_) hs.2
    rw [selectedCause_clearsCause, fence_clearsCause]
    have hflag : (s.fence d).flag = true := by simpa using hf
    by_contra hall
    simp only [not_or, Bool.not_eq_true, Bool.not_eq_false] at hall
    obtain ⟨ha, hc, hforced⟩ := hall
    exact hkeep ⟨hflag, ha, hc, hforced⟩
  · have hrecord : fencedRecord d true (raisesCause d c s) = s.modFence d fun f =>
        { f with causes := f.causes.with c true, flag := true, commanded := some (s.policy d).safeState,
                 safeSent := true } := by
      refine (modFence_modFence ..).trans (modFence_congr ?_)
      simp only [hr]
      rfl
    rw [conditionRaised_fences hs hn hf hr hsrc ha hsel hreloc, enteredFenced, hrecord]
    rfl

end
end Sys2Proof.Machine.DriveFencing
end

section
namespace Sys2Proof.Machine.DriveFencing
open Sys2Proof.Machine.Laws Sys2Proof.Machine.DriveString

/-! SUPPORT. The release of a fence at an INDEX (R189). -/

section
variable {d : DriveNo} {cyl : Fin 604} {s : State}

/-! What the release of the record and its items leave alone. -/

theorem releaseRecord_keeps (d : DriveNo) (s : State) :
    (releaseRecord d s).drives = s.drives ∧ (releaseRecord d s).scheds = s.scheds ∧
    (releaseRecord d s).tracks = s.tracks ∧ (releaseRecord d s).bufWait = s.bufWait ∧
    (releaseRecord d s).work = s.work := by
  unfold releaseRecord
  split <;> simp

theorem releaseRecord_setArm (d : DriveNo) (a : ArmState) (s : State) :
    (releaseRecord d s).setArm d a = releaseRecord d (s.setArm d a) := by
  have hsame : (s.setArm d a).fence d = s.fence d := rfl
  simp only [releaseRecord, hsame]
  split <;> rfl

theorem endLevel_keeps (b : ItemBody) (s : State) :
    (endLevel b s).drives = s.drives ∧ (endLevel b s).scheds = s.scheds ∧ (endLevel b s).tracks = s.tracks ∧
    (endLevel b s).bufWait = s.bufWait ∧ (endLevel b s).work = s.work := by
  have hb := behind_endLevel b s
  simp only [Laws.behind, Prod.mk.injEq] at hb
  tauto

/-- Work for an arm stands in the Request Queue, the tracks and the Drive Record. -/
theorem noWork_of_same {t : State} (hd : t.drives = s.drives) (hq : t.scheds = s.scheds) (ht : t.tracks = s.tracks)
    (h : noWork d s) : noWork d t := by
  simpa only [noWork, State.sched, State.track, State.drive, hd, hq, ht] using h

theorem noWork_releaseRecord (h : noWork d s) : noWork d (releaseRecord d s) := by
  obtain ⟨hd, hq, ht, -, -⟩ := releaseRecord_keeps d s
  exact noWork_of_same hd hq ht h

/-- DRIVE-FENCED ends and FENCE-RELEASED is raised (steps 5 and 6 of R189). -/
def releaseRaised (d : DriveNo) (s : State) : State :=
  raiseDrive d (.fenceReleased d) (endLevel (.driveFenced d) s)

theorem noWork_releaseRaised (h : noWork d s) : noWork d (releaseRaised d s) := by
  obtain ⟨hd, hq, ht, -, -⟩ := endLevel_keeps (.driveFenced d) s
  exact noWork_raiseDrive (noWork_of_same hd hq ht h)

theorem releaseRaised_releaseRecord_work (d : DriveNo) (s : State) :
    (releaseRaised d (releaseRecord d s)).work = s.work := by
  obtain ⟨-, -, -, -, hrecord⟩ := releaseRecord_keeps d s
  obtain ⟨-, -, -, -, hended⟩ := endLevel_keeps (.driveFenced d) (releaseRecord d s)
  simp only [releaseRaised, raiseDrive_keeps, hended, hrecord]

/-- With no requester waiting, the items of a release are followed by no reclaim (R124). -/
theorem releaseItems_none (h : s.bufWait = []) : releaseItems d s = releaseRaised d s := by
  obtain ⟨-, -, -, hb, -⟩ := endLevel_keeps (.driveFenced d) s
  exact reclaimCheck_none (by simp [hb, h])

/-! The INDEX. -/

/-- A WRITE-INHIBIT fence is released on a known cylinder: the arm enters IDLE (R189). -/
theorem releaseFence_writeInhibit (hk : (s.fence d).commanded = some .writeInhibit) (hc : (s.drive d).cyl = some cyl)
    (hn : noWork d s) (hb : s.bufWait = []) :
    releaseFence d s = (releaseRaised d (releaseRecord d (s.setArm d .idle))).later [.select d] := by
  obtain ⟨-, -, -, hwait, -⟩ := releaseRecord_keeps d (s.setArm d .idle)
  have hidle : noWork d (releaseRecord d (s.setArm d .idle)) := noWork_releaseRecord (noWork_modDrive rfl hn)
  simp only [releaseFence, hk, hc]
  rw [releaseRecord_setArm, applyPolicy_noWork _ hidle, releaseItems_none (hwait.trans hb)]

theorem indexEvent_releases (ha : (s.drive d).arm = .fenced) (hr : (s.fence d).releasePending = true)
    (hf : (s.fence d).flag = false) (ht : (s.drive d).seekTarget = none) :
    indexEvent d s = releaseFence d (s.modDrive d fun k => { k with indexSeen := true, position := none }) := by
  simp only [indexEvent, ha, if_pos (And.intro hr (And.intro hf ht))]

/-- Settles O56: no policy becomes current and no work is selected, and SAFE-STATE END goes by the mark. -/
theorem fenceReleased : Obligations.FenceReleased := by
  intro d cyl s hs ha hf hr hk ht hc hn hb
  have hturned : noWork d (s.modDrive d fun k => { k with indexSeen := true, position := none }) :=
    noWork_modDrive rfl hn
  have hidle : noWork d (s.modDrive d fun r => { r with arm := .idle, indexSeen := true, position := none }) :=
    noWork_modDrive rfl hn
  have hevent := (indexEvent_releases ha hr hf ht).trans
    (releaseFence_writeInhibit (cyl := cyl) hk (by simpa using hc) hturned hb)
  rw [State.setArm, modDrive_modDrive] at hevent
  have hw : (releaseRaised d (releaseRecord d (s.modDrive d fun r =>
      { r with arm := .idle, indexSeen := true, position := none }))).work = [] :=
    (releaseRaised_releaseRecord_work d _).trans hs.2
  exact take_single hs hevent hw (select_noWork (noWork_releaseRaised (noWork_releaseRecord hidle))) hw

end
end Sys2Proof.Machine.DriveFencing
end

section
namespace Sys2Proof.Machine.ManagementEngine
open Sys2Proof.Machine.Laws

/-! SUPPORT. What the commands leave of the installation: authority, Attach Memory, the Path Table, the pins and the
queue of commands. Operations that internal work does not call, one equation each. -/

section
variable {s : State}

/-! The drive events. -/

@[simp] theorem installation_comingReady (d : DriveNo) : installation (comingReady d s) = installation s := rfl

@[simp] theorem installation_seekCheck (d : DriveNo) : installation (seekCheck d s) = installation s := by
  unfold seekCheck
  dsimp only
  (repeat' split) <;> simp

@[simp] theorem installation_seekOutcome (d : DriveNo) (good : Bool) :
    installation (seekOutcome d good s) = installation s := by
  unfold seekOutcome
  (repeat' split) <;> simp

@[simp] theorem installation_indexEvent (d : DriveNo) : installation (indexEvent d s) = installation s := by
  unfold indexEvent
  dsimp only
  (repeat' split) <;> simp

@[simp] theorem installation_sectorEvent (d : DriveNo) : installation (sectorEvent d s) = installation s := by
  unfold sectorEvent
  dsimp only
  (repeat' split) <;> simp

@[simp] theorem installation_faultOnPass (d : DriveNo) : installation (faultOnPass d s) = installation s := by
  unfold faultOnPass
  (repeat' split) <;> simp

/-! The link frames. -/

@[simp] theorem installation_joinCtxWait (l : LinkNo) (notify : Bool) :
    installation (joinCtxWait l notify s) = installation s := by
  unfold joinCtxWait
  split <;> simp

@[simp] theorem installation_haltCtx (c : CtxNo) : installation (haltCtx c s) = installation s := by
  unfold haltCtx
  (repeat' split) <;> simp

@[simp] theorem installation_resetCtx (c : CtxNo) : installation (resetCtx c s) = installation s := by
  unfold resetCtx
  split <;> simp

@[simp] theorem installation_resetLink (l : LinkNo) (enters : LinkState) :
    installation (resetLink l enters s) = installation s := by
  simp [resetLink, installation_each]

@[simp] theorem installation_deliveryEnds (l : LinkNo) (c : CtxNo) (x : Context) :
    installation (deliveryEnds l c x s) = installation s := by
  unfold deliveryEnds
  dsimp only
  split <;> simp

/-- The pre-step entries, one after another (R25). -/
theorem installation_runPre (l : LinkNo) (d : DriveNo) (es : List Entry) (i : Nat) (r : PreResult) :
    installation (runPre l d es i r).state = installation r.state := by
  induction es generalizing i r with
  | nil => rfl
  | cons e es ih =>
    cases e with
    | seek | read | write | flush | sense => exact ih _ _
    | reserve | release =>
      unfold runPre
      dsimp only
      split <;> simp [ih]

@[simp] theorem installation_decideChain (l : LinkNo) (d : DriveNo) (tag : Byte) (notify : Bool) (es : List Entry) :
    installation (decideChain l d tag notify es s) = installation s := by
  unfold decideChain
  dsimp only
  have hr := installation_runPre l d (preSteps es) 0 ⟨s, none, none⟩
  generalize runPre l d (preSteps es) 0 ⟨s, none, none⟩ = r at hr
  split
  · simpa using hr
  · split
    · simpa using hr
    · split
      · simpa using hr
      · split
        · simpa using hr
        · exact hr

@[simp] theorem installation_acceptance (l : LinkNo) (unit : BitVec 4) (tag : Byte) (notify : Bool) (count : Byte)
    (body : List Byte) : installation (acceptance l unit tag notify count body s) = installation s := by
  unfold acceptance
  dsimp only
  (repeat' split) <;> simp

/-! Management operations (chapter 11). -/

@[simp] theorem installation_setCursor (l : LinkNo) (k : Option Cursor) :
    installation (setCursor l k s) = installation s := rfl

@[simp] theorem installation_writeLevels (l target : LinkNo) (levels : Vector (Fin 16) 13) :
    installation (writeLevels l target levels s) = installation s := by
  unfold writeLevels
  dsimp only
  split <;> simp

@[simp] theorem installation_writePolicy (d : DriveNo) (p : Policy) :
    installation (writePolicy d p s) = installation s := by
  unfold writePolicy
  dsimp only
  split <;> simp

@[simp] theorem installation_beginMap (d : DriveNo) : installation (beginMap d s) = installation s := by
  unfold beginMap
  dsimp only
  (repeat' split) <;> simp [installation_each]

@[simp] theorem installation_commitMap (d : DriveNo) : installation (commitMap d s) = installation s := by
  simp [commitMap]

@[simp] theorem installation_discard (b : BufNo) : installation (discard b s) = installation s := by
  unfold discard
  dsimp only
  (repeat' split) <;> simp

/-- A Path Table row is replaced, and the drives' changes act (R66 to R68). -/
theorem installation_writeRow (target : LinkNo) (row : Vector Bool 8) :
    installation (writeRow target row s) = installation { s with paths := put s.paths target row } :=
  installation_each allDrives (fun d t => by split <;> simp) _

/-! Controller Reset (R199). -/

@[simp] theorem installation_dropRelocation (d : DriveNo) : installation (dropRelocation d s) = installation s := by
  unfold dropRelocation
  dsimp only
  (repeat' split) <;> simp

@[simp] theorem installation_sparesQuietly (d : DriveNo) : installation (sparesQuietly d s) = installation s := rfl

@[simp] theorem installation_resetArm (d : DriveNo) : installation (resetArm d s) = installation s := by
  unfold resetArm
  dsimp only
  (repeat' split) <;> simp

@[simp] theorem installation_policyQuietly (d : DriveNo) : installation (policyQuietly d s) = installation s := by
  unfold policyQuietly
  dsimp only
  (repeat' split) <;> simp

@[simp] theorem installation_resetBuffer (b : BufNo) : installation (resetBuffer b s) = installation s := by
  unfold resetBuffer
  dsimp only
  (repeat' split) <;> simp

end
end Sys2Proof.Machine.ManagementEngine
end

section
namespace Sys2Proof.Machine.ManagementEngine
open Sys2Proof.Machine.Laws Sys2Proof.Machine.ReservationControl

/-! SUPPORT. Controller Reset: what it does to the ports, the item sets and authority (R64, R194), and that it leaves
the rest of the installation alone. -/

section
variable {s : State}

theorem modPort_unchanged {l : LinkNo} {f : Port → Port} (h : f (s.port l) = s.port l) : s.modPort l f = s := by
  unfold State.modPort
  rw [change_id _ _ _ h]

theorem modPort_congr {l : LinkNo} {f g : Port → Port} (h : f (s.port l) = g (s.port l)) :
    s.modPort l f = s.modPort l g := by
  unfold State.modPort
  rw [change_congr h]

/-- A port after a Controller Reset (R64). -/
def freshPort (p : Port) : Port := if p.state = .down then p else ⟨.idle, 0, none⟩

/-- A link's set without its items (R46). -/
def withoutItems (p : Present) : Present := { p with items := [] }

/-- The three records of one link at a Controller Reset (R64, R194). -/
theorem resetPort_eq (l : LinkNo) (s : State) : resetPort l s =
    ((s.modAuth l fun _ => ⟨false, false⟩).modPresent l withoutItems).modPort l freshPort := by
  unfold resetPort
  dsimp only
  split
  · next h =>
    have hdown : freshPort (s.port l) = s.port l := if_pos h
    exact (modPort_unchanged (s := (s.modAuth l _).modPresent l withoutItems) hdown).symm
  · next h => exact modPort_congr (if_neg h).symm

/-- A table of four places of which each has been changed. -/
theorem change_four {α : Type} (v : Vector α 4) (f : α → α) :
    change (change (change (change v 0 f) 1 f) 2 f) 3 f = v.map f := by
  apply Vector.ext
  intro i hi
  interval_cases i <;> simp [change, put, Vector.get_eq_getElem]

/-- Every link at a Controller Reset: ports, item sets and authority. -/
def linksReset (s : State) : State :=
  { s with
    ports := s.ports.map freshPort
    auth := Vector.replicate 4 ⟨false, false⟩
    present := s.present.map withoutItems }

theorem each_resetPort (s : State) : each allLinks resetPort s = linksReset s := by
  have hauth : s.auth.map (fun _ => (⟨false, false⟩ : Authority)) = Vector.replicate 4 ⟨false, false⟩ := by
    apply Vector.ext
    simp
  simp only [allLinks, each_cons, each_nil, resetPort_eq, State.modAuth, State.modPresent, State.modPort, change_four,
    hauth]
  rfl

/-- A Controller Reset takes every link back to READ and opens its attach lock, and leaves the rest of the installation
alone (R194). -/
theorem installation_resetController (s : State) : installation (resetController s) =
    installation { s with auth := Vector.replicate 4 ⟨false, false⟩ } := by
  unfold resetController
  extract_lets s1 s2 s3 s4 path s5 s6 s7 s8
  have h1 : installation s1 = installation (linksReset s) := congrArg installation (each_resetPort s)
  clear_value s1
  have h2 : installation s2 = installation s1 := rfl
  have h4 : installation s4 = installation s2 := by simp [s4, s3, installation_each]
  clear_value s4
  have h5 : installation s5 = installation s4 := rfl
  have h6 : installation s6 = installation s5 := installation_each _ (fun d t => installation_modSched d _ t) _
  have h8 : installation s8 = installation s6 := by simp [s8, s7, installation_each]
  calc installation _ = installation s8 := installation_each _ (fun d t => by simp) _
    _ = installation s4 := h8.trans (h6.trans h5)
    _ = installation (linksReset s) := h4.trans (h2.trans h1)

end
end Sys2Proof.Machine.ManagementEngine
end

section
namespace Sys2Proof.Machine.ManagementEngine
open Sys2Proof.Machine.Laws

/-! SUPPORT. What each command leaves of the installation: most leave all of it. -/

section
variable {s : State} {P : State → Prop}

/-- A property that depends on the installation alone. -/
def OfInstallation (P : State → Prop) : Prop := ∀ u t, installation t = installation u → P u → P t

/-- What a property demands of the state that a command answers. -/
def Leaves (P : State → Prop) (o : Host.Outcome State Fault Refusal) : Prop := ∀ t, o = .next t → P t

/-- A command keeps a property of the installation that its effect keeps: internal work does not touch it. -/
theorem take_leaves {f : State → State} (hP : OfInstallation P) (hf : ∀ u, P u → P (f u)) (hs : P s) :
    Leaves P (take s f) :=
  fun _ h => take_keeps (fun u w hu => hP u _ (installation_set_work u w) hu)
    (fun k u hu => hP u _ (installation_runTask k u) hu) hf hs h

/-- A management operation keeps a property of the installation that its effects keep; they begin with the installation
that its verdict saw (R193). -/
theorem manage_leaves {l : LinkNo} {tag code : Byte} {needsFull lengthOk : Bool} {verdict : State → Verdict}
    (hP : OfInstallation P)
    (hv : ∀ u t, installation t = installation u → P t → P ((verdict u).early t)) (hs : P s) :
    Leaves P (take s (manage l tag code needsFull lengthOk verdict)) := by
  have hchecked : ∀ u t, installation t = installation u → P t →
      P ((checkedVerdict u l needsFull lengthOk verdict).early t) := by
    intro u t hsame ht
    unfold checkedVerdict
    (repeat' split)
    · exact ht
    · exact hv u t hsame ht
    · exact ht
  refine take_leaves hP (fun u hu => ?_) hs
  unfold manage
  dsimp only
  split
  · exact hu
  · exact hP _ _ (installation_later _ _) (hchecked _ _ (installation_frame _ _ _) (hP u _ rfl hu))
  · exact hP u _ (installation_frame _ _ _) hu
  · exact hP u _ (installation_frame _ _ _) hu

/-- The whole installation stands. -/
def SameInstallation (s t : State) : Prop := installation t = installation s

theorem sameInstallation_ofInstallation (s : State) : OfInstallation (SameInstallation s) :=
  fun _ _ hsame hu => hsame.trans hu

/-- A command whose effect leaves the installation alone. -/
theorem take_leavesInstallation {f : State → State} (hf : ∀ u, installation (f u) = installation u) :
    Leaves (SameInstallation s) (take s f) :=
  take_leaves (sameInstallation_ofInstallation s) (fun u hu => (hf u).trans hu) rfl

/-- A management operation whose effects leave the installation alone. -/
theorem manage_leavesInstallation {l : LinkNo} {tag code : Byte} {needsFull lengthOk : Bool}
    {verdict : State → Verdict} (hv : ∀ u t, installation ((verdict u).early t) = installation t) :
    Leaves (SameInstallation s) (take s (manage l tag code needsFull lengthOk verdict)) :=
  manage_leaves (sameInstallation_ofInstallation s) (fun u t _ ht => (hv u t).trans ht) rfl

theorem installation_driveVerdict {operand : List Byte} {decide : DriveNo → Verdict} {t : State}
    (h : ∀ d, installation ((decide d).early t) = installation t) :
    installation ((driveVerdict operand decide).early t) = installation t := by
  unfold driveVerdict
  split
  · exact h _
  · rfl

theorem installation_trackVerdict {operand : List Byte} {decide : DriveNo → HomeTrack → Verdict} {t : State}
    (h : ∀ d home, installation ((decide d home).early t) = installation t) :
    installation ((trackVerdict operand decide).early t) = installation t := by
  unfold trackVerdict
  (repeat' split)
  · exact h _ _
  · rfl
  · rfl

theorem installation_bufferVerdict {operand : List Byte} {decide : BufNo → Verdict} {t : State}
    (h : ∀ b, installation ((decide b).early t) = installation t) :
    installation ((bufferVerdict operand decide).early t) = installation t := by
  unfold bufferVerdict
  split
  · exact h _
  · rfl

/-- The commands that have a part of the installation. -/
def touchesInstallation : Instr → Bool
  | .attach .. | .linkDown _ | .linkUp _ | .pathWrite .. | .controllerReset .. | .powerOnClear
  | .powerOnClearAsserted => true
  | _ => false

/-- Every command that has no part of the installation leaves all of it. -/
theorem exec_leavesInstallation {c : Instr} (hc : touchesInstallation c = false) :
    Leaves (SameInstallation s) (exec c s) := by
  cases c with
  | attach | linkDown | linkUp | pathWrite | controllerReset | powerOnClear | powerOnClearAsserted =>
    simp [touchesInstallation] at hc
  | defer | offerTimeout | seekTimeout | seekDone | sector | sectorResult | index =>
    exact take_leavesInstallation fun u => by simp
  | frameCheckFailure => exact take_leavesInstallation fun _ => rfl
  | commandFrame l unit tag notify count body =>
    change Leaves _ (execCommandFrame l unit tag notify count body s)
    exact take_leavesInstallation fun u => by split <;> simp
  | dataFrame l tag sector data =>
    change Leaves _ (execDataFrame l tag sector data s)
    exact take_leavesInstallation fun u => by dsimp only; (repeat' split) <;> simp
  | accept l =>
    change Leaves _ (execAccept l s)
    exact take_leavesInstallation fun u => by dsimp only; (repeat' split) <;> simp
  | resume l =>
    change Leaves _ (execResume l s)
    exact take_leavesInstallation fun u => by split <;> simp
  | halt l tag =>
    change Leaves _ (execHalt l tag s)
    exact take_leavesInstallation fun u => by dsimp only; (repeat' split) <;> simp
  | linkReset l =>
    change Leaves _ (execLinkReset l s)
    exact take_leavesInstallation fun u => by split <;> simp
  | manageInvalid | bufferRead | captureRead => exact manage_leavesInstallation fun _ _ => rfl
  | statusRead => exact manage_leavesInstallation fun u t => by split <;> rfl
  | mapRead =>
    exact manage_leavesInstallation fun u t => by unfold mapReadVerdict; dsimp only; (repeat' split) <;> rfl
  | suspectRead =>
    exact manage_leavesInstallation fun u t => by unfold suspectReadVerdict; dsimp only; (repeat' split) <;> rfl
  | priorityWrite | policyWrite | mapLoad | forceRelease =>
    exact manage_leavesInstallation fun u t => by (repeat' split) <;> simp [Machine.accept, refuse]
  | mapBegin | mapCommit | fencePurge | fenceForce | fenceClear =>
    exact manage_leavesInstallation fun u t =>
      installation_driveVerdict fun d => by (repeat' split) <;> simp [Machine.accept, refuse]
  | relocate | suspectRemove =>
    exact manage_leavesInstallation fun u t =>
      installation_trackVerdict fun d h => by (repeat' split) <;> simp [Machine.accept, refuse]
  | suspectPlace =>
    exact manage_leavesInstallation fun u t => installation_trackVerdict fun d h => by
      unfold placeVerdict
      (repeat' split) <;> simp [Machine.accept, refuse]
  | bufferDiscard | parityForce =>
    exact manage_leavesInstallation fun u t =>
      installation_bufferVerdict fun b => by (repeat' split) <;> simp [Machine.accept, refuse]
  | dataTimeout l =>
    change Leaves _ (execDataTimeout l s)
    exact take_leavesInstallation fun u => by (repeat' split) <;> simp
  | recalibrateTimeout d =>
    change Leaves _ (execRecalibrateTimeout d s)
    exact take_leavesInstallation fun u => by split <;> simp
  | ready d =>
    change Leaves _ (execReady d s)
    exact take_leavesInstallation fun u => by split <;> simp
  | notReady d =>
    change Leaves _ (execNotReady d s)
    exact take_leavesInstallation fun u => by split <;> simp
  | recalDone d good =>
    change Leaves _ (execRecalDone d good s)
    exact take_leavesInstallation fun u => by (repeat' split) <;> simp
  | conditionRaised d c =>
    change Leaves _ (execConditionRaised d c s)
    exact take_leavesInstallation fun u => by dsimp only; (repeat' split) <;> simp
  | conditionCleared d c =>
    change Leaves _ (execConditionCleared d c s)
    exact take_leavesInstallation fun u => by split <;> simp
  | settleEnd d =>
    change Leaves _ (execSettleEnd d s)
    exact take_leavesInstallation fun u => by (repeat' split) <;> simp
  | passEnd d e =>
    change Leaves _ (execPassEnd d e s)
    exact take_leavesInstallation fun u => by (repeat' split) <;> simp
  | deliveryFrame l =>
    change Leaves _ (execDeliveryFrame l s)
    exact take_leavesInstallation fun u => by dsimp only; (repeat' split) <;> simp

end
end Sys2Proof.Machine.ManagementEngine
end

section
namespace Sys2Proof.Machine.ManagementEngine
open Sys2Proof.Machine.Laws Sys2Proof.Machine.ReservationControl

/-! SUPPORT. What the commands that have a part of the installation leave of it, and the law of Attach Memory (R195). -/

section
variable {s : State}

theorem installation_fields {u t : State} (h : installation t = installation u) :
    t.auth = u.auth ∧ t.attachMemory = u.attachMemory ∧ t.paths = u.paths ∧ t.lineUp = u.lineUp ∧
    t.switches = u.switches ∧ t.clearLine = u.clearLine ∧ t.pending = u.pending := by
  simpa only [installation, Prod.mk.injEq] using h

/-! What each leaves. -/

/-- All of the installation but authority stands. -/
def SameButAuthority (s t : State) : Prop := installation t = installation { s with auth := t.auth }

/-- All of the installation but authority and Attach Memory stands. -/
def SameButAttach (s t : State) : Prop :=
  installation t = installation { s with auth := t.auth, attachMemory := t.attachMemory }

/-- All of the installation but the Path Table stands. -/
def SameButPaths (s t : State) : Prop := installation t = installation { s with paths := t.paths }

theorem sameButAuthority_ofInstallation (s : State) : OfInstallation (SameButAuthority s) := by
  intro u t hsame hu
  obtain ⟨ha, -⟩ := installation_fields hsame
  unfold SameButAuthority
  rw [hsame, ha]
  exact hu

theorem sameButAttach_ofInstallation (s : State) : OfInstallation (SameButAttach s) := by
  intro u t hsame hu
  obtain ⟨ha, hm, -⟩ := installation_fields hsame
  unfold SameButAttach
  rw [hsame, ha, hm]
  exact hu

theorem sameButPaths_ofInstallation (s : State) : OfInstallation (SameButPaths s) := by
  intro u t hsame hu
  obtain ⟨-, -, hp, -⟩ := installation_fields hsame
  unfold SameButPaths
  rw [hsame, hp]
  exact hu

theorem sameButAuthority_reset {u : State} (hu : SameButAuthority s u) : SameButAuthority s (resetController u) := by
  have hreset := installation_resetController u
  obtain ⟨ha, -⟩ := installation_fields hreset
  obtain ⟨-, hm, hp, hl, hw, hc, hq⟩ := installation_fields hu
  unfold SameButAuthority
  rw [hreset, ha]
  simp [installation, hm, hp, hl, hw, hc, hq]

theorem sameButPaths_writeRow {u : State} {target : LinkNo} {row : Vector Bool 8} (hu : SameButPaths s u) :
    SameButPaths s (writeRow target row u) := by
  have hrow := installation_writeRow (s := u) target row
  obtain ⟨-, -, hp, -⟩ := installation_fields hrow
  obtain ⟨ha, hm, -, hl, hw, hc, hq⟩ := installation_fields hu
  unfold SameButPaths
  rw [hrow, hp]
  simp [installation, ha, hm, hl, hw, hc, hq]

/-- ATTACH decides on authority, attach lock and Attach Memory (R195). -/
theorem attachVerdict_sameButAttach {l : LinkNo} {identity : List Byte} {u t : State} (ht : SameButAttach s t) :
    SameButAttach s ((attachVerdict l identity u).early t) := by
  obtain ⟨-, -, hp, hl, hw, hc, hq⟩ := installation_fields ht
  unfold attachVerdict
  dsimp only
  (repeat' split)
  · exact ht
  all_goals simp [SameButAttach, installation, Machine.accept, hp, hl, hw, hc, hq]

theorem execAttach_leaves (l : LinkNo) (tag : Byte) (operand : List Byte) (turned : Option (Vector Byte 8)) :
    Leaves (SameButAttach (turnSwitches turned s)) (execAttach l tag operand turned s) :=
  manage_leaves (sameButAttach_ofInstallation _) (fun _ _ _ ht => attachVerdict_sameButAttach ht) rfl

/-- A link that goes down loses its authority (R194). -/
theorem execLinkDown_leaves (l : LinkNo) : Leaves (SameButAuthority (setLine l false s)) (execLinkDown l s) := by
  refine take_leaves (sameButAuthority_ofInstallation _) (fun u hu => ?_) rfl
  split
  · exact hu
  · obtain ⟨-, hm, hp, hl, hw, hc, hq⟩ := installation_fields hu
    obtain ⟨-, hm', -, hl', hw', hc', hq'⟩ := installation_fields (installation_resetLink (s := u) l .down)
    simp [SameButAuthority, installation, hm, hp, hl, hw, hc, hq, hm', hl', hw', hc', hq']

theorem execLinkUp_leaves (l : LinkNo) : Leaves (SameInstallation (setLine l true s)) (execLinkUp l s) := by
  refine take_leavesInstallation fun u => ?_
  split <;> simp

theorem execPathWrite_leaves (l : LinkNo) (tag : Byte) (operand : List Byte) :
    Leaves (SameButPaths s) (execPathWrite l tag operand s) := by
  refine manage_leaves (sameButPaths_ofInstallation _) (fun u t _ ht => ?_) rfl
  split
  · exact sameButPaths_writeRow ht
  · exact ht

theorem execControllerReset_leaves (l : LinkNo) (tag : Byte) (operand : List Byte) :
    Leaves (SameButAuthority s) (execControllerReset l tag operand s) := by
  refine manage_leaves (sameButAuthority_ofInstallation _) (fun u t _ ht => ?_) rfl
  dsimp only [Machine.accept]
  exact sameButAuthority_reset ht

theorem turnSwitches_eq (turned : Option (Vector Byte 8)) (s : State) :
    turnSwitches turned s = { s with switches := (turnSwitches turned s).switches } := by
  cases turned <;> rfl

end

/-- Settles O12: most commands leave the installation alone, and each of the others leaves all but its part. -/
theorem installationFrame : Obligations.InstallationFrame := by
  intro c s t h
  by_cases hc : touchesInstallation c = false
  · obtain ⟨ha, hm, hp, hl, hw, hclear, hq⟩ := installation_fields (exec_leavesInstallation hc t h)
    exact ⟨hq, .inl ha, .inl hp, .inl hm, .inl hl, .inl hw, .inl hclear⟩
  · cases c with
    | attach l tag o v =>
      obtain ⟨-, -, hp, hl, -, hclear, hq⟩ := installation_fields (execAttach_leaves l tag o v t h)
      obtain ⟨-, -, hp', hl', -, hclear', hq'⟩ := installation_fields (congrArg installation (turnSwitches_eq v s))
      exact ⟨hq.trans hq', .inr (.inl ⟨l, tag, o, v, rfl⟩), .inl (hp.trans hp'), .inr (.inl ⟨l, tag, o, v, rfl⟩),
        .inl (hl.trans hl'), .inr ⟨l, tag, o, v, rfl⟩, .inl (hclear.trans hclear')⟩
    | linkDown l =>
      obtain ⟨-, hm, hp, -, hw, hclear, hq⟩ := installation_fields (execLinkDown_leaves l t h)
      exact ⟨hq, .inr (.inr (.inl ⟨l, rfl⟩)), .inl hp, .inl hm, .inr (.inl ⟨l, rfl⟩), .inl hw, .inl hclear⟩
    | linkUp l =>
      obtain ⟨ha, hm, hp, -, hw, hclear, hq⟩ := installation_fields (execLinkUp_leaves l t h)
      exact ⟨hq, .inl ha, .inl hp, .inl hm, .inr (.inr ⟨l, rfl⟩), .inl hw, .inl hclear⟩
    | pathWrite l tag o =>
      obtain ⟨ha, hm, -, hl, hw, hclear, hq⟩ := installation_fields (execPathWrite_leaves l tag o t h)
      exact ⟨hq, .inl ha, .inr (.inl ⟨l, tag, o, rfl⟩), .inl hm, .inl hl, .inl hw, .inl hclear⟩
    | controllerReset l tag o =>
      obtain ⟨-, hm, hp, hl, hw, hclear, hq⟩ := installation_fields (execControllerReset_leaves l tag o t h)
      exact ⟨hq, .inr (.inr (.inr (.inl ⟨l, tag, o, rfl⟩))), .inl hp, .inl hm, .inl hl, .inl hw, .inl hclear⟩
    | powerOnClear =>
      cases h
      exact ⟨rfl, .inr (.inr (.inr (.inr rfl))), .inr (.inr rfl), .inr (.inr rfl), .inl rfl, .inl rfl, .inr (.inl rfl)⟩
    | powerOnClearAsserted =>
      cases h
      exact ⟨rfl, .inl rfl, .inl rfl, .inl rfl, .inl rfl, .inl rfl, .inr (.inr rfl)⟩
    | _ => exact absurd rfl hc

/-! Attach Memory (R195). -/

section
variable {s : State}

theorem authorityLaw_congr {u t : State} (ha : t.auth = u.auth) (hm : t.attachMemory = u.attachMemory)
    (hu : authorityLaw u) : authorityLaw t := by
  unfold authorityLaw
  rw [ha, hm]
  exact hu

theorem authorityLaw_ofInstallation : OfInstallation authorityLaw := by
  intro u t hsame hu
  obtain ⟨ha, hm, -⟩ := installation_fields hsame
  exact authorityLaw_congr ha hm hu

/-- Where no link holds FULL authority there is nothing to find. -/
theorem authorityLaw_read (h : s.auth = Vector.replicate 4 ⟨false, false⟩) : authorityLaw s := by
  intro l hl
  simp [h] at hl

/-- A link's authority changes, and it is not raised to FULL. -/
theorem authorityLaw_modAuth {l : LinkNo} {f : Authority → Authority} (hf : ∀ a, (f a).full = true → a.full = true)
    (hs : authorityLaw s) : authorityLaw (s.modAuth l f) := by
  intro k hk
  simp only [modAuth_auth, get_change] at hk
  split at hk
  · exact hs l (hf _ hk)
  · exact hs k hk

/-- ATTACH gives FULL authority only where Attach Memory is set, or sets it (R195). -/
theorem attachVerdict_keepsAuthority {l : LinkNo} {identity : List Byte} {u t : State}
    (hsame : installation t = installation u) (ht : authorityLaw t) :
    authorityLaw ((attachVerdict l identity u).early t) := by
  obtain ⟨-, hm, -⟩ := installation_fields hsame
  unfold attachVerdict
  dsimp only
  (repeat' split)
  · exact ht
  · next hset => exact fun _ _ => hm.trans hset
  · exact fun _ _ => rfl
  · exact authorityLaw_modAuth (fun _ ha => ha) ht

theorem execAttach_keepsAuthority {l : LinkNo} {tag : Byte} {operand : List Byte} {turned : Option (Vector Byte 8)}
    (hs : authorityLaw s) : Leaves authorityLaw (execAttach l tag operand turned s) := by
  obtain ⟨ha, hm, -⟩ := installation_fields (congrArg installation (turnSwitches_eq turned s))
  exact manage_leaves authorityLaw_ofInstallation (fun _ _ => attachVerdict_keepsAuthority)
    (authorityLaw_congr ha hm hs)

theorem execLinkDown_keepsAuthority {l : LinkNo} (hs : authorityLaw s) : Leaves authorityLaw (execLinkDown l s) := by
  refine take_leaves (s := setLine l false s) authorityLaw_ofInstallation (fun u hu => ?_) hs
  split
  · exact hu
  · have hreset := authorityLaw_ofInstallation u _ (installation_resetLink l .down) hu
    exact authorityLaw_modAuth (by simp) hreset

theorem execControllerReset_keepsAuthority {l : LinkNo} {tag : Byte} {operand : List Byte} (hs : authorityLaw s) :
    Leaves authorityLaw (execControllerReset l tag operand s) :=
  manage_leaves authorityLaw_ofInstallation
    (fun _ t _ _ => by
      obtain ⟨ha, -⟩ := installation_fields (installation_resetController t)
      exact authorityLaw_read ha) hs

theorem execPowerOnClear_keepsAuthority (s : State) : Leaves authorityLaw (execPowerOnClear s) := by
  rintro _ ⟨⟩
  exact authorityLaw_read rfl

/-- Every command keeps the law: those that could break it are the ones that change authority or Attach Memory. -/
theorem exec_keepsAuthority (c : Instr) (hs : authorityLaw s) : Leaves authorityLaw (exec c s) := by
  intro t h
  obtain ⟨-, ha, -, hm, -⟩ := installationFrame c s t h
  rcases hm with hm | ⟨l, tag, o, v, rfl⟩ | rfl
  · rcases ha with ha | ⟨l, tag, o, v, rfl⟩ | ⟨l, rfl⟩ | ⟨l, tag, o, rfl⟩ | rfl
    · exact authorityLaw_congr ha hm hs
    · exact execAttach_keepsAuthority hs t h
    · exact execLinkDown_keepsAuthority hs t h
    · exact execControllerReset_keepsAuthority hs t h
    · exact execPowerOnClear_keepsAuthority s t h
  · exact execAttach_keepsAuthority hs t h
  · exact execPowerOnClear_keepsAuthority s t h

end

/-- Settles O7: the law survives every command, and the work that an idle step may find left over. -/
theorem authorityLawKept : Obligations.AuthorityLawKept := by
  intro s t hs h
  unfold step at h
  split at h
  · cases h
    exact authorityLaw_ofInstallation s _ (installation_settle s) hs
  · next c rest _ => exact exec_keepsAuthority (s := { s with pending := rest }) c hs t h

end Sys2Proof.Machine.ManagementEngine
end

section
namespace Sys2Proof.Machine.ManagementEngine
open Sys2Proof.Machine.Laws

/-! SUPPORT. The power-on clear line (R200), and the frame check (R201). -/

/-- Under the asserted line a command is not taken. -/
theorem take_asserted {s : State} (f : State → State) (h : s.clearLine = true) : take s f = .next s := by
  simp [take, h]

/-- Under the asserted line only the pins that a command reports move (log 10). -/
theorem exec_asserted {c : Instr} {s : State} (h : s.clearLine = true) (hc : c ≠ .powerOnClear) :
    ∃ t, exec c s = .next t ∧ t = { s with lineUp := t.lineUp, switches := t.switches } := by
  cases c with
  | powerOnClear => exact absurd rfl hc
  | powerOnClearAsserted =>
    refine ⟨_, rfl, ?_⟩
    rw [← h]
  | attach l tag operand turned =>
    have ht : (turnSwitches turned s).clearLine = true := by
      rw [turnSwitches_eq]
      exact h
    refine ⟨_, take_asserted _ ht, ?_⟩
    rw [turnSwitches_eq]
  | linkDown l =>
    refine ⟨setLine l false s, ?_, rfl⟩
    dsimp only [exec]
    exact take_asserted (s := setLine l false s) _ h
  | linkUp l =>
    refine ⟨setLine l true s, ?_, rfl⟩
    dsimp only [exec]
    exact take_asserted (s := setLine l true s) _ h
  | _ =>
    refine ⟨s, ?_, rfl⟩
    dsimp only [exec]
    exact take_asserted _ h

/-- Settles O3: nothing is taken under the asserted line, and the release writes out the power-on state. -/
theorem powerOnClearLine : Obligations.PowerOnClearLine :=
  ⟨fun _ => rfl, fun _ _ h hc => exec_asserted h hc, fun _ => rfl⟩

/-! The frame check (R201). -/

/-- The frame check adds two bytes, which are behind the body. -/
theorem dropLast_withCheck (body : List Byte) : (withCheck body).dropLast.dropLast = body := by
  have hcheck : withCheck body =
      body ++ [byteOf ((frameCheck body).toNat / 256)] ++ [byteOf (frameCheck body).toNat] := by
    simp [withCheck, bytesOf]
  rw [hcheck, List.dropLast_concat, List.dropLast_concat]

theorem length_withCheck (body : List Byte) : (withCheck body).length = body.length + 2 := by
  simp [withCheck, bytesOf]

/-- A frame is received as the body whose check it carries. -/
theorem checked_eq_some {frame body : List Byte} : checked frame = some body ↔ body ≠ [] ∧ frame = withCheck body := by
  unfold checked
  dsimp only
  constructor
  · intro h
    split at h
    · next hc =>
      obtain ⟨hlen, hframe⟩ := hc
      obtain rfl := Option.some.inj h
      refine ⟨fun hnil => ?_, hframe.symm⟩
      rw [hnil] at hframe
      rw [← hframe, length_withCheck] at hlen
      simp at hlen
    · simp at h
  · rintro ⟨hne, rfl⟩
    have hpos : 0 < body.length := List.length_pos_of_ne_nil hne
    rw [dropLast_withCheck, if_pos ⟨by rw [length_withCheck]; omega, rfl⟩]

/-- The check of the nine digits, by which the parameters of a frame check are named. -/
theorem frameCheck_digits :
    frameCheck [49#8, 50#8, 51#8, 52#8, 53#8, 54#8, 55#8, 56#8, 57#8] = 10673#16 := by decide +kernel

/-- Settles O22: a frame and its body determine each other, and a discarded frame does nothing. -/
theorem frameCheckDecides : Obligations.FrameCheckDecides := by
  refine ⟨frameCheck_digits, fun body h => checked_eq_some.mpr ⟨h, rfl⟩, fun frame body h => ?_, fun l frame h => ?_,
    fun l frame s hs => ?_⟩
  · obtain ⟨-, hframe⟩ := checked_eq_some.mp h
    exact hframe
  · simp [receiveFrame, h]
  · obtain ⟨hclear, hwork⟩ := hs
    exact take_plain s (fun u => u) hclear hwork hwork

end Sys2Proof.Machine.ManagementEngine
end

section
namespace Sys2Proof.Machine.ManagementEngine
open Sys2Proof.Machine.Laws Sys2Proof.Machine.DriveString Sys2Proof.Machine.ChainControl
open Sys2Proof.Machine.TrackBuffers (take_reads)

/-! SUPPORT. The checks of every management frame (R193), and STATUS-READ, ATTACH and PRIORITY-WRITE (R195 to R197). -/

section
variable {l : LinkNo} {tag code : Byte} {s : State}

/-! The checks (R193). -/

/-- A management frame on an IDLE link that a check refuses: nothing changes but the floor and the answer. -/
theorem take_refusedByCheck {needsFull lengthOk : Bool} {verdict : State → Verdict} {r : Reason} (h : atIdle l s)
    (hv : checkedVerdict (floorZero l s) l needsFull lengthOk verdict = refuse r) :
    take s (manage l tag code needsFull lengthOk verdict) =
      .next (choose l (answered l code (.refused r none) s)) := by
  obtain ⟨hs, hp⟩ := id h
  have hw : s.work = [] := atIdle_work h
  have hm : manage l tag code needsFull lengthOk verdict s =
      (answered l code (.refused r none) s).later [.choose l] := by
    simp only [manage, hp]
    rw [show setFloor l 0 s = floorZero l s from rfl, hv]
    rfl
  exact take_single hs hm hw rfl (choose_work hw)

/-- Check 3: the link has not the authority that the operation needs. -/
theorem take_noAuthority {lengthOk : Bool} {verdict : State → Verdict} (h : atIdle l s)
    (hf : (s.auth.get l).full = false) : take s (manage l tag code true lengthOk verdict) =
      .next (choose l (answered l code (.refused .authority none) s)) :=
  take_refusedByCheck h (if_pos (by rw [show (floorZero l s).auth = s.auth from rfl, hf]; rfl))

/-- Check 4: the operand block has the wrong length. -/
theorem take_badLength {needsFull : Bool} {verdict : State → Verdict} (h : atIdle l s)
    (hf : needsFull = true → (s.auth.get l).full = true) : take s (manage l tag code needsFull false verdict) =
      .next (choose l (answered l code (.refused .range none) s)) := by
  refine take_refusedByCheck h (if_neg ?_)
  rw [show (floorZero l s).auth = s.auth from rfl]
  cases needsFull <;> simp_all

/-- An operation of an assigned code is a management frame with its code's authority and operand length (R203). -/
theorem exec_managementOp (operand : List Byte) (hlo : 1 ≤ code.toNat) (hhi : code.toNat ≤ 22) :
    ∃ verdict, exec (managementOp l tag code operand) s =
      take s (manage l tag code (decide (8 ≤ code.toNat)) (operandFits code.toNat operand) verdict) := by
  have hcode : code = BitVec.ofNat 8 code.toNat := by simp
  generalize code.toNat = n at hlo hhi hcode
  subst hcode
  cases operand with
  | nil => interval_cases n <;> exact ⟨_, rfl⟩
  | cons a rest => interval_cases n <;> exact ⟨_, rfl⟩

/-- A code that is not assigned spells no operation (R203). -/
theorem managementOp_unknown (operand : List Byte) (h : code.toNat < 1 ∨ 22 < code.toNat) :
    managementOp l tag code operand = .manageInvalid l tag (.unknownCode code) := by
  unfold managementOp
  split <;> simp_all

/-- The operation code in the answer to a frame that names no operation (R193; log 17). -/
def answeredCode : ManageFault → Byte
  | .noSingleManage => 0#8
  | .unknownCode k => k

theorem exec_manageInvalid (why : ManageFault) (h : atIdle l s) : exec (.manageInvalid l tag why) s =
    .next (choose l (answered l (answeredCode why) (.refused .range none) s)) := by
  have hw : s.work = [] := atIdle_work h
  cases why <;> exact take_reads h rfl rfl hw

end

/-- Settles O29: authority is tested before the length, and what names no operation is out of range. -/
theorem managementChecks : Obligations.ManagementChecks := by
  intro l tag s h
  refine ⟨fun code operand hlo hhi hf => ?_, fun code operand hlo hhi hf hlen => ?_, fun code operand hcode => ?_,
    fun code => exec_manageInvalid _ h, exec_manageInvalid _ h⟩
  · obtain ⟨verdict, hexec⟩ := exec_managementOp (l := l) (tag := tag) (s := s) operand (by omega) hhi
    rw [hexec, decide_eq_true hlo]
    exact take_noAuthority h hf
  · obtain ⟨verdict, hexec⟩ := exec_managementOp (l := l) (tag := tag) (s := s) operand hlo hhi
    rw [hexec, hlen]
    exact take_badLength h fun hfull => hf (of_decide_eq_true hfull)
  · rw [managementOp_unknown operand hcode]
    exact exec_manageInvalid _ h

end Sys2Proof.Machine.ManagementEngine
end

section
namespace Sys2Proof.Machine.ManagementEngine
open Sys2Proof.Machine.Laws Sys2Proof.Machine.DriveString Sys2Proof.Machine.ChainControl
open Sys2Proof.Machine.ReservationControl (readLink_byteOf)
open Sys2Proof.Machine.TrackBuffers (take_reads)

/-! SUPPORT. The operations of the Management Engine that need no FULL authority: ATTACH, STATUS-READ and
PRIORITY-WRITE (R195 to R197). -/

/-! ATTACH (R195): its decision, case by case. -/

/-- The link is given FULL authority. -/
def grants (l : LinkNo) (s : State) : State := s.modAuth l fun a => { a with full := true }

section
variable {l : LinkNo} {tag : Byte} {identity : List Byte} {s u : State}

theorem attachVerdict_locked (hl : (s.auth.get l).locked = true) :
    attachVerdict l identity s = refuse .attachLocked := by
  simp only [attachVerdict, hl, if_true]

theorem attachVerdict_attached (hl : (s.auth.get l).locked = false) (hm : s.attachMemory = true) :
    attachVerdict l identity s = Machine.accept (grants l) [] := by
  simp only [attachVerdict, hl, hm, if_true, Bool.false_eq_true, if_false]
  rfl

theorem attachVerdict_matches (hl : (s.auth.get l).locked = false) (hm : s.attachMemory = false)
    (hi : identity = s.switches.toList) : attachVerdict l identity s =
      Machine.accept (fun t => { grants l t with attachMemory := true }) [] := by
  simp only [attachVerdict, hl, hm, hi, if_true, Bool.false_eq_true, if_false]
  rfl

theorem attachVerdict_differs (hl : (s.auth.get l).locked = false) (hm : s.attachMemory = false)
    (hi : identity ≠ s.switches.toList) : attachVerdict l identity s =
      ⟨.refused .authority none, fun t => t.modAuth l fun a => { a with locked := true }, []⟩ := by
  simp [attachVerdict, hl, hm, hi]

/-- What ATTACH answers and does, by its decision. -/
theorem exec_attach {answer : Answer} {early : State → State} (h : atIdle l s) (hlen : identity.length = 8)
    (hv : attachVerdict l identity s = ⟨answer, early, []⟩) (hu : early (answered l 1#8 answer s) = u)
    (hw : u.work = []) : exec (.attach l tag identity none) s = .next (choose l u) := by
  have hfits : (identity.length == 8) = true := by rw [hlen]; rfl
  change take s (manage l tag 1#8 false (identity.length == 8) (attachVerdict l identity)) = _
  rw [hfits]
  exact take_reads h hv hu hw

end

/-- Settles O30: the lock, Attach Memory and the switches decide, in this order. -/
theorem attachDecision : Obligations.AttachDecision := by
  intro l tag identity s h hlen
  have hw : s.work = [] := atIdle_work h
  refine ⟨fun hl => ?_, fun hl hm => ?_, fun hl hm hi => ?_, fun hl hm hi => ?_, fun turned => rfl⟩
  · exact exec_attach h hlen (attachVerdict_locked hl) rfl hw
  · exact exec_attach h hlen (attachVerdict_attached hl hm) rfl hw
  · exact exec_attach h hlen (attachVerdict_matches hl hm hi) rfl hw
  · exact exec_attach h hlen (attachVerdict_differs hl hm hi) rfl hw

/-! STATUS-READ (R197). -/

theorem readDrive_range {a : Byte} (h : 8 ≤ a.toNat) : readDrive a = none := by
  simp [readDrive, h]

/-- Settles O31: a drive number answers the sense record, which the link's floor is no part of. -/
theorem statusRead : Obligations.StatusRead := by
  intro l tag s h
  have hw : s.work = [] := atIdle_work h
  refine ⟨fun d => ?_, fun a ha => ?_⟩
  · change execStatusRead l tag [byteOf d.val] s = _
    refine take_reads h (early := id) ?_ rfl hw
    simp only [List.head?_cons, Option.bind_some, readDrive_byteOf]
    rfl
  · change execStatusRead l tag [a] s = _
    refine take_reads h (early := id) ?_ rfl hw
    simp only [List.head?_cons, Option.bind_some, readDrive_range ha]
    rfl

/-! PRIORITY-WRITE (R52, R196). -/

section
variable {l k : LinkNo} {tag : Byte} {s u : State}

theorem readLink_range {a : Byte} (h : 4 ≤ a.toNat) : readLink a = none := by
  simp [readLink, h]

/-- A byte of value 0. -/
theorem toNat_getElem?_zero (levels : List Byte) (i : Nat) :
    (levels.map BitVec.toNat)[i]? = some 0 ↔ levels[i]? = some 0#8 := by
  rw [List.getElem?_map, Option.map_eq_some_iff]
  constructor
  · rintro ⟨b, hb, hz⟩
    rw [hb, BitVec.eq_of_toNat_eq (y := 0#8) hz]
  · exact fun hb => ⟨0#8, hb, rfl⟩

/-- R52 forbids a level above 15, and level 0 for ENDING and RECONNECT, the first two kinds. -/
theorem readLevels_eq_none {levels : List Byte} (hlen : levels.length = 13) : readLevels levels = none ↔
    (∃ b ∈ levels, 16 ≤ b.toNat) ∨ levels[0]? = some 0#8 ∨ levels[1]? = some 0#8 := by
  have hall : ((levels.map BitVec.toNat).all fun n => decide (n < 16)) = true ↔ ¬∃ b ∈ levels, 16 ≤ b.toNat := by
    simp
  unfold readLevels
  simp only [dif_pos hlen, hall, Ne, toNat_getElem?_zero, ← not_or]
  split
  · next hgood => exact iff_of_false (by simp) hgood
  · next hbad => exact iff_of_true rfl (not_not.mp hbad)

/-- The decision of PRIORITY-WRITE over what its operand reads as (R196). -/
def priorityVerdict (l : LinkNo) (target : Option LinkNo) (levels : Option (Vector (Fin 16) 13)) (s : State) :
    Verdict :=
  match target with
  | none => refuse .range
  | some k =>
    if k ≠ l ∧ (s.auth.get l).full = false then refuse .authority
    else
      match levels with
      | none => refuse .range
      | some v => Machine.accept (writeLevels l k v) []

theorem execPriorityWrite_eq (l : LinkNo) (tag : Byte) (operand : List Byte) (s : State) :
    execPriorityWrite l tag operand s = take s (manage l tag 7#8 false (operand.length == 14)
      (priorityVerdict l (operand.head?.bind readLink) (readLevels operand.tail))) := rfl

/-- What PRIORITY-WRITE answers and does, by its decision. -/
theorem exec_priorityWrite {a : Byte} {levels : List Byte} {answer : Answer} {early : State → State} (h : atIdle l s)
    (hlen : levels.length = 13) (hv : priorityVerdict l (readLink a) (readLevels levels) s = ⟨answer, early, []⟩)
    (hu : early (answered l 7#8 answer s) = u) (hw : u.work = []) :
    exec (.priorityWrite l tag (a :: levels)) s = .next (choose l u) := by
  have hfits : ((a :: levels).length == 14) = true := by simp [hlen]
  change execPriorityWrite l tag (a :: levels) s = _
  rw [execPriorityWrite_eq, hfits]
  exact take_reads h hv hu hw

theorem priorityVerdict_other {levels : Option (Vector (Fin 16) 13)} (hk : k ≠ l) (hf : (s.auth.get l).full = false) :
    priorityVerdict l (some k) levels s = refuse .authority :=
  if_pos ⟨hk, hf⟩

theorem priorityVerdict_entitled {levels : Option (Vector (Fin 16) 13)} (h : k = l ∨ (s.auth.get l).full = true) :
    priorityVerdict l (some k) levels s =
      levels.elim (refuse .range) fun v => Machine.accept (writeLevels l k v) [] := by
  have hentitled : ¬(k ≠ l ∧ (s.auth.get l).full = false) := by
    rintro ⟨hk, hf⟩
    simp [hk, hf] at h
  cases levels <;> exact if_neg hentitled

/-- A table is replaced (R52). -/
def withLevels (k : LinkNo) (v : Vector (Fin 16) 13) (s : State) : State :=
  s.modPresent k fun p => { p with levels := v }

theorem writeLevels_own {v : Vector (Fin 16) 13} : writeLevels l l v s = withLevels l v s := if_pos rfl

theorem writeLevels_other {v : Vector (Fin 16) 13} (hk : k ≠ l) : writeLevels l k v s = choose k (withLevels k v s) :=
  if_neg hk

end

/-- Settles O34: the target is read before authority is tested, and the table is read last. -/
theorem priorityWrite : Obligations.PriorityWrite := by
  intro l k tag levels s h hlen
  have hw : s.work = [] := atIdle_work h
  refine ⟨fun a ha => ?_, fun hk hf => ?_, fun hallowed => ⟨readLevels_eq_none hlen, fun hnone => ?_, fun v hv => ?_⟩⟩
  · exact exec_priorityWrite h hlen (by rw [readLink_range ha]; rfl) rfl hw
  · exact exec_priorityWrite h hlen (by rw [readLink_byteOf]; exact priorityVerdict_other hk hf) rfl hw
  · exact exec_priorityWrite h hlen (by rw [readLink_byteOf, hnone, priorityVerdict_entitled hallowed]; rfl) rfl hw
  · have hdecides : priorityVerdict l (readLink (byteOf k.val)) (readLevels levels) s =
        Machine.accept (writeLevels l k v) [] := by
      rw [readLink_byteOf, hv, priorityVerdict_entitled hallowed]
      rfl
    refine ⟨?_, fun hk => ?_⟩
    · rintro rfl
      exact exec_priorityWrite h hlen hdecides writeLevels_own hw
    · exact exec_priorityWrite h hlen hdecides (writeLevels_other hk) (choose_work hw)

end Sys2Proof.Machine.ManagementEngine
end

section
namespace Sys2Proof.Machine.ManagementEngine
open Sys2Proof.Machine.Laws Sys2Proof.Machine.DriveString Sys2Proof.Machine.ChainControl
open Sys2Proof.Machine.ReservationControl

/-! SUPPORT. CONTROLLER-RESET on a quiet string (R199): each block finds nothing of its own to carry out. -/

section
variable {s : State}

/-- No drive has a selection, a queued item or a relocation, and no buffer is assigned. -/
def quietString (s : State) : Prop :=
  (∀ d, (s.sched d).selection = none ∧ (s.sched d).queue = [] ∧ (s.track d).reloc = none) ∧
  ∀ b, (s.buffer b).assigned = none

theorem bufState_unassigned {b : Buffer} (h : b.assigned = none) : b.state = .empty := by
  simp only [Buffer.state, h]

/-! What each block of the reset does there. -/

/-- Where no drive meets a test, nothing is done for any. -/
theorem each_filter_none {α : Type} {xs : List α} {p : α → Bool} (f : α → State → State) (h : ∀ x, p x = false) :
    each (xs.filter p) f s = s := by
  have hnil : xs.filter p = [] := List.filter_eq_nil_iff.mpr fun x _ => by simp [h x]
  rw [hnil, each_nil]

theorem quiet_relocations (f : DriveNo → State → State) (h : quietString s) :
    each (allDrives.filter fun d => (s.track d).reloc.isSome) f s = s := by
  obtain ⟨hd, -⟩ := h
  refine each_filter_none f fun d => ?_
  obtain ⟨-, -, hreloc⟩ := hd d
  rw [hreloc]
  rfl

/-- An arm without a selection is left as it is (R16). -/
theorem quiet_arms (h : quietString s) : each allDrives resetArm s = s := by
  obtain ⟨hd, -⟩ := h
  refine each_nothing fun d _ => ?_
  obtain ⟨hsel, -⟩ := hd d
  simp only [resetArm, hsel]

/-- An empty Request Queue is left as it is (R100). -/
theorem quiet_queues (keep : QueueItem → Bool) (h : quietString s) :
    each allDrives (fun d t => t.modSched d fun q => { q with queue := q.queue.filter keep }) s = s := by
  obtain ⟨hd, -⟩ := h
  refine each_nothing fun d _ => ?_
  obtain ⟨-, hqueue, -⟩ := hd d
  have hkept : (fun q : Scheduler => { q with queue := q.queue.filter keep }) (s.scheds.get d) = s.scheds.get d := by
    change ({ s.sched d with queue := (s.sched d).queue.filter keep } : Scheduler) = s.sched d
    rw [hqueue, List.filter_nil, ← hqueue]
  unfold State.modSched
  rw [change_id _ _ _ hkept]

/-- An EMPTY buffer is left as it is (R141). -/
theorem quiet_buffers (h : quietString s) : each allBufs resetBuffer s = s := by
  obtain ⟨-, hb⟩ := h
  refine each_nothing fun b _ => ?_
  simp [resetBuffer, bufState_unassigned (hb b)]

/-- An EMPTY buffer is given no destage item (R130). -/
theorem quiet_items (h : quietString s) : joinInTurn (allBufs.filter (wantsItem s)) s = s := by
  obtain ⟨-, hb⟩ := h
  refine each_filter_none _ fun b => ?_
  simp [wantsItem, bufState_unassigned (hb b)]

/-- No arm enters IDLE by the reset (R16). -/
theorem quiet_idle (f : DriveNo → State → State) (h : quietString s) :
    each (allDrives.filter (resetToIdle s)) f s = s := by
  obtain ⟨hd, -⟩ := h
  refine each_filter_none f fun d => ?_
  obtain ⟨hsel, -⟩ := hd d
  simp only [resetToIdle, hsel]

/-- The records that a Controller Reset clears (R199). -/
def recordsCleared (s : State) : State :=
  { linksReset s with
    contexts := Vector.replicate 16 none
    ctxWait := []
    resv := Vector.replicate 8 ⟨none, []⟩
    bufWait := []
    path := { s.path with booking := none }
    suspects := s.suspects.map fun e => { e with spareDue := false } }

/-- On a quiet string a Controller Reset clears records, and nothing else follows. -/
theorem resetController_quiet (h : quietString s) : resetController s = recordsCleared s := by
  unfold resetController
  rw [each_resetPort]
  extract_lets s1 s2 s3 s4 path s5 s6 s7 s8
  have h3 : s3 = s2 := quiet_relocations _ h
  have h4 : s4 = s2 := (congrArg (each allDrives resetArm) h3).trans (quiet_arms h)
  clear_value s4
  subst h4
  have hcleared : quietString s5 := h
  have h6 : s6 = s5 := quiet_queues _ hcleared
  have h7 : s7 = s5 := (congrArg (each allBufs resetBuffer) h6).trans (quiet_buffers hcleared)
  clear_value s7
  subst h7
  have h8 : s8 = s5 := quiet_items hcleared
  clear_value s8
  subst h8
  exact quiet_idle _ hcleared

/-! The command. -/

/-- Of a set without items nothing is offered (R54). -/
theorem choose_noItems {l : LinkNo} (h : (s.present.get l).items = []) : choose l s = s := by
  have hnone : offerable s l = [] := by simp [offerable, h]
  unfold choose
  split
  · simp only [hnone, highest]
  · rfl

end

/-- Settles O46: on a quiet string the reset clears records, and the cleared sets leave the link no choice. -/
theorem controllerResetQuiet : Obligations.ControllerResetQuiet := by
  intro l tag s h hd hb hpath
  have hw : s.work = [] := by
    obtain ⟨hi, -⟩ := h
    exact atIdle_work hi
  have hquiet : quietString (accepted l 22#8 s) := by
    refine ⟨fun d => ?_, hb⟩
    obtain ⟨-, hrest⟩ := hd d
    exact hrest
  have hunbooked : ({ s.path with booking := none } : Path) = s.path := by rw [hpath]
  have hnoItems : ((recordsCleared (accepted l 22#8 s)).present.get l).items = [] := by
    simp [recordsCleared, linksReset, withoutItems]
  have hexec : exec (.controllerReset l tag []) s = .next (recordsCleared (accepted l 22#8 s)) := by
    change execControllerReset l tag [] s = _
    rw [← choose_noItems hnoItems]
    exact take_answers h rfl (resetController_quiet hquiet) hw
  rw [hexec, recordsCleared]
  rw [show (accepted l 22#8 s).path = s.path from rfl, hunbooked]
  rfl

end Sys2Proof.Machine.ManagementEngine
end

section
namespace Sys2Proof.Machine.CommandQueue
open Sys2Proof.Machine.Laws

/-! SUPPORT. A step by the queue of commands (log 2): one equation for a queue with a command at its front, one for an
empty queue, where only the work that a bound has left is done (log 3). -/

theorem step_of_pending_cons {c : Instr} {rest : List Instr} {s : State} (h : s.pending = c :: rest) :
    step s = exec c { s with pending := rest } := by
  unfold step
  rw [h]

theorem step_of_pending_nil {s : State} (h : s.pending = []) : step s = .next (settle s) := by
  unfold step
  rw [h]

/-- Settles O1: by the queue, and an idle step with no work left settles nothing. -/
theorem stepRunsFrontCommand : Obligations.StepRunsFrontCommand := by
  refine ⟨fun c rest s hfront => step_of_pending_cons hfront, fun s hempty hwork => ?_⟩
  calc step s
    _ = .next (settle s) := step_of_pending_nil hempty
    _ = .next s := by rw [settle_calm s hwork]

end Sys2Proof.Machine.CommandQueue
end
